-- ==== Sys2Proof/Word.lean ====
section
/-!
DEFINITION. The word types of the BX6 model and the plain shapes its data come in: bytes and 16- and
32-bit fields as bit vectors, link time as a 32-bit count, and one value per axle, per truck and per
port (introduction, sections 0.5.3 and 0.5.4).
-/

namespace Sys2Proof

/-- One byte of a telegram, an item or a page. -/
abbrev U8 := BitVec 8
/-- A two-byte field. -/
abbrev U16 := BitVec 16
/-- A four-byte field. -/
abbrev U32 := BitVec 32
/-- Link time (R1): a free-running count of milliseconds, modulo 2^32. -/
abbrev LinkTime := BitVec 32
/-- A run of bytes, the first one first. -/
abbrev Bytes := List U8

/-- The two link ports (section 0.2). -/
inductive Port where
  | cab
  | drive
deriving DecidableEq, Repr

/-- The port across the part from this one: forwarding always goes there (R7). -/
def Port.other : Port → Port
  | .cab => .drive
  | .drive => .cab

/-- The six axles (section 0.5.4). -/
inductive Axle where
  | e1
  | e2
  | e3
  | e4
  | e5
  | e6
deriving DecidableEq, Repr

/-- The axles in ascending axle number. -/
def Axle.all : List Axle := [.e1, .e2, .e3, .e4, .e5, .e6]

/-- The axle number less one: the bit an axle has in a validity set, a presence byte or an axle set. -/
def Axle.bit : Axle → Nat
  | .e1 => 0
  | .e2 => 1
  | .e3 => 2
  | .e4 => 3
  | .e5 => 4
  | .e6 => 5

/-- The two trucks: A carries axles 1 to 3, B axles 4 to 6 (section 0.5.4). -/
inductive Truck where
  | a
  | b
deriving DecidableEq, Repr

/-- The truck an axle belongs to. -/
def Axle.truck : Axle → Truck
  | .e1 => .a
  | .e2 => .a
  | .e3 => .a
  | .e4 => .b
  | .e5 => .b
  | .e6 => .b

/-- The three axles of a truck, ascending. -/
def Truck.axles : Truck → List Axle
  | .a => [.e1, .e2, .e3]
  | .b => [.e4, .e5, .e6]

/-- The two inverter nodes (section 0.5.4): A drives axles 1 to 3, B axles 4 to 6. -/
inductive Inverter where
  | a
  | b
deriving DecidableEq, Repr

/-- The inverter node that drives an axle. -/
def Axle.inverter : Axle → Inverter
  | .e1 => .a
  | .e2 => .a
  | .e3 => .a
  | .e4 => .b
  | .e5 => .b
  | .e6 => .b

/-- One value for each axle. -/
structure PerAxle (α : Type) where
  a1 : α
  a2 : α
  a3 : α
  a4 : α
  a5 : α
  a6 : α
deriving DecidableEq, Repr

/-- The value of one axle. -/
def PerAxle.get {α : Type} (v : PerAxle α) : Axle → α
  | .e1 => v.a1
  | .e2 => v.a2
  | .e3 => v.a3
  | .e4 => v.a4
  | .e5 => v.a5
  | .e6 => v.a6

/-- The six values a function of the axle gives. -/
def PerAxle.ofFn {α : Type} (f : Axle → α) : PerAxle α :=
  ⟨f .e1, f .e2, f .e3, f .e4, f .e5, f .e6⟩

/-- Replace the value of one axle. -/
def PerAxle.set {α : Type} (v : PerAxle α) (a : Axle) (x : α) : PerAxle α :=
  match a with
  | .e1 => { v with a1 := x }
  | .e2 => { v with a2 := x }
  | .e3 => { v with a3 := x }
  | .e4 => { v with a4 := x }
  | .e5 => { v with a5 := x }
  | .e6 => { v with a6 := x }

/-- The same value on every axle. -/
def PerAxle.const {α : Type} (x : α) : PerAxle α := ⟨x, x, x, x, x, x⟩

/-- The six values in ascending axle number. -/
def PerAxle.toList {α : Type} (v : PerAxle α) : List α :=
  [v.a1, v.a2, v.a3, v.a4, v.a5, v.a6]

/-- The sum of six counts. -/
def PerAxle.sum (v : PerAxle Nat) : Nat :=
  v.a1 + v.a2 + v.a3 + v.a4 + v.a5 + v.a6

/-- One value for each truck. -/
structure PerTruck (α : Type) where
  a : α
  b : α
deriving DecidableEq, Repr

/-- The value of one truck. -/
def PerTruck.get {α : Type} (v : PerTruck α) : Truck → α
  | .a => v.a
  | .b => v.b

/-- The two values a function of the truck gives. -/
def PerTruck.ofFn {α : Type} (f : Truck → α) : PerTruck α := ⟨f .a, f .b⟩

/-- Replace the value of one truck. -/
def PerTruck.set {α : Type} (v : PerTruck α) (t : Truck) (x : α) : PerTruck α :=
  match t with
  | .a => { v with a := x }
  | .b => { v with b := x }

/-- One value for each port. -/
structure PerPort (α : Type) where
  cab : α
  drive : α
deriving DecidableEq, Repr

/-- The value of one port. -/
def PerPort.get {α : Type} (v : PerPort α) : Port → α
  | .cab => v.cab
  | .drive => v.drive

/-- Replace the value of one port. -/
def PerPort.set {α : Type} (v : PerPort α) (p : Port) (x : α) : PerPort α :=
  match p with
  | .cab => { v with cab := x }
  | .drive => { v with drive := x }

/-- A count that stays at its greatest value (section 0.5.2, saturating). -/
def satAdd (top n d : Nat) : Nat := min top (n + d)

end Sys2Proof
end

