-- ==== Sys2Proof/Syntax.lean ====
section
/-!
DEFINITION. The commands of the BX6: one constructor of `Instr` for each row of spec/opcode_table.json,
with the operands the rule of the row gives it. A command that comes from the link carries what the
telegram carries; a command that ends an operation of the non-volatile memory carries what the memory
reads afterwards; a reset and a loss of supply carry what they leave of an operation they cut.
-/

namespace Sys2Proof

/-- What a port receiver hands on (R2): a whole telegram, or one cut by the next start delimiter. -/
inductive Received where
  | whole (bytes : Bytes)
  | truncated (bytes : Bytes)
deriving DecidableEq, Repr

/-- Who sends an order (R190): the management source, named by the index of its ORDER entry in the
active classification table, and the tag the source chose for the order. -/
structure Origin where
  entry : Fin 32
  tag : U8
deriving DecidableEq, Repr

/-- One axle's part of an EFFORT_REPORT (section 1.2): achieved effort, available limit, fault byte. -/
structure InverterReport where
  achieved : U16
  limit : U16
  fault : U8
deriving DecidableEq, Repr

/-- How a commit attempt ends (R173, R174). `agrees next`: the page reads back as built; `next` is what
the next code programmed into the record's last committed page reads back as, `none` when it reads as
written (or none was programmed). `mismatch left`: the read-back differs; `left` is what the page reads
once the store has overwritten its header bytes 0 to 8 with zeros. -/
inductive CommitResult where
  | agrees (next : Option U8)
  | mismatch (left : Bytes)
deriving DecidableEq, Repr

/-- What a page whose commit was cut reads afterwards (R187): void, bad with the bytes given, or whole. -/
inductive CutPage where
  | void
  | bad (bytes : Bytes)
  | whole
deriving DecidableEq, Repr

/-- What a profile save that was cut leaves (R148): the slot corrupted, or the slot complete with the old
or the new start-up selection. -/
inductive CutSave where
  | corrupted
  | completeOldSelection
  | completeNewSelection
deriving DecidableEq, Repr

/-- What a reset or a loss of supply leaves of the one memory operation and the save it cuts (R148, R187).
`page`: the page of a commit. `next`: the next code of the record's last page, when the page was whole
and its linking had begun. `erased`: the pages of a bank under erase that already read erased, bit n for
page n. `save`: the profile save. What is not in progress is not cut. -/
structure Cut where
  page : CutPage
  next : Option U8
  erased : BitVec 64
  save : CutSave
deriving DecidableEq, Repr

/-- One constructor for each row of spec/opcode_table.json, in the table's order. -/
inductive Instr where
  -- resets and start-up
  | powerOn (cut : Cut)
  | resetInput (cut : Cut)
  | restartReset (cut : Cut)
  | startUpLoad
  | scanEnd
  -- telegrams
  | telegramReceived (port : Port) (rx : Received)
  | demand (dest : U8) (seq : U8) (effort : U16) (flags : U8)
  | axleSpeed (dest : U8) (seq : U8) (sampleTime : U16) (speeds : PerAxle U16) (valid : U8)
  | effortReport (node : Inverter) (dest : U8) (seq : U8) (r1 : InverterReport) (r2 : InverterReport) (r3 : InverterReport)
  | cylPressure (dest : U8) (seq : U8) (fbA : U16) (fbB : U16) (valve : U8)
  -- deadlines
  | staleExpiry (entry : Fin 32)
  | demandLossExpiry
  | demandLossRepeat
  | adhesionRecoveryStep
  | ventDeadline (truck : Truck)
  | supervisionDeadline (truck : Truck)
  | settleEnd
  | calTimeout
  | statusDeadline
  | transmissionEnd (port : Port)
  -- orders
  | linkCounts (o : Origin) (clear : U8)
  | inquireSource (o : Origin) (entry : U8)
  | engage (o : Origin)
  | releaseControl (o : Origin)
  | enterMaint (o : Origin)
  | leaveMaint (o : Origin)
  | setMode (o : Origin) (channel : U8) (mode : U8)
  | setValue (o : Origin) (channel : U8) (value : U16)
  | inquireChannel (o : Origin) (channel : U8)
  | inquireCapability (o : Origin)
  | inquireBlend (o : Origin)
  | clearAttention (o : Origin) (axles : U8)
  | inquireSlide (o : Origin)
  | inquireCommand (o : Origin)
  | calibrate (o : Origin) (channel : U8)
  | load (o : Origin) (sect : U8) (start : U8) (count : U8) (last : U8) (items : Bytes)
  | accept (o : Origin)
  | reject (o : Origin)
  | abandon (o : Origin)
  | readTable (o : Origin) (selector : U8) (sect : U8) (start : U8) (count : U8)
  | listProfiles (o : Origin)
  | loadProfile (o : Origin) (slot : U8)
  | saveProfile (o : Origin) (slot : U8)
  | saveProfileComplete (agrees : Bool)
  | arm (o : Origin)
  | disarm (o : Origin)
  | trigger (o : Origin)
  | readRing (o : Origin) (offset : U16) (count : U8)
  | inquireRecorder (o : Origin) (clear : U8)
  | readRecord (o : Origin) (incident : U32) (item : U16) (cont : U8)
  | readNext (o : Origin)
  | listRecords (o : Origin) (start : U8)
  | pinRecord (o : Origin) (incident : U32)
  | unpinRecord (o : Origin) (incident : U32)
  | clearStore (o : Origin)
  | inquireStore (o : Origin)
  | inquire (o : Origin)
  | clearFaults (o : Origin) (classes : U8)
  | restart (o : Origin)
  -- record store operations and supply
  | commitEnd (result : CommitResult)
  | eraseEnd (left : List (Nat × Bytes))
  | pageReadEnd
  | powerLoss (cut : Cut)
deriving DecidableEq, Repr

end Sys2Proof
end

