-- ==== Sys2Proof/Machine/Bytes.lean ====
section
/-!
DEFINITION. Bytes and fields: the byte order of multi-byte fields (section 1.2: most significant byte
first) and the CRC-16 of R3.
-/

namespace Sys2Proof.Machine

/-- The two bytes of a field, most significant first. -/
def be16 (w : U16) : Bytes := [w.extractLsb' 8 8, w.extractLsb' 0 8]

/-- The four bytes of a field, most significant first. -/
def be32 (w : U32) : Bytes :=
  [w.extractLsb' 24 8, w.extractLsb' 16 8, w.extractLsb' 8 8, w.extractLsb' 0 8]

/-- A count as a byte, a two-byte, a three-byte and a four-byte field. -/
def byteOf (n : Nat) : U8 := BitVec.ofNat 8 n
def nat16 (n : Nat) : Bytes := be16 (BitVec.ofNat 16 n)
def nat24 (n : Nat) : Bytes := [BitVec.ofNat 8 (n / 65536), BitVec.ofNat 8 (n / 256), BitVec.ofNat 8 n]
def nat32 (n : Nat) : Bytes := be32 (BitVec.ofNat 32 n)

/-- The byte at an offset; a byte beyond the end reads 0 (callers judge lengths first). -/
def byteAt (b : Bytes) (i : Nat) : U8 := b.getD i 0

/-- The two-byte field at an offset. -/
def u16At (b : Bytes) (i : Nat) : U16 := byteAt b i ++ byteAt b (i + 1)

/-- The four-byte field at an offset. -/
def u32At (b : Bytes) (i : Nat) : U32 := u16At b i ++ u16At b (i + 2)

/-- A flag byte: 1 for true, 0 for false. -/
def flagByte (b : Bool) : U8 := if b then 1 else 0

/-- One bit of the CRC division: generator x^16 + x^12 + x^5 + 1, most significant bit first (R3). -/
def crcBit (c : Nat) : Nat :=
  if c.testBit 15 then Nat.xor (c * 2 % 65536) 0x1021 else c * 2 % 65536

/-- One byte entered, most significant bit first. -/
def crcByte (c : Nat) (b : U8) : Nat :=
  crcBit (crcBit (crcBit (crcBit (crcBit (crcBit (crcBit (crcBit (Nat.xor c (b.toNat * 256)))))))))

/-- The CRC over bytes, from the value reached so far. -/
def crcFrom : Nat → Bytes → Nat
  | c, [] => c
  | c, b :: rest => crcFrom (crcByte c b) rest

/-- CRC-16 (R3): initial value FFFFh, no final inversion. -/
def crc16 (b : Bytes) : U16 := BitVec.ofNat 16 (crcFrom 0xFFFF b)

end Sys2Proof.Machine
end

