-- ==== Sys2Proof/Machine/TableSet.lean ====
section
/-!
DEFINITION. A table set (R132): its eight sections as records of the fields their chapters list, the
LOAD form of every item in both directions, the set CRC (R133), the consistency checks (R138) and the
factory set. Fields hold what LOAD writes, in range or not; the checks judge them.
-/

namespace Sys2Proof.Machine

/-! ### The records -/

/-- A classification entry (section 1.4): item form of 7 bytes. -/
structure ClassEntry where
  port : U8
  source : U8
  kind : U8
  action : U8
  role : U8
  stale : U16
deriving DecidableEq, Repr

/-- The classification header (section 1.4): item form of 4 bytes. -/
structure ClassHeader where
  node : U8
  defaultAction : U8
  statusPeriod : U16
deriving DecidableEq, Repr

/-- A breakpoint of the capability curve (section 3.1). -/
structure Breakpoint where
  speed : U16
  effort : U16
deriving DecidableEq, Repr

/-- The axle block (R132): breakpoint count, presence byte, six ratings. -/
structure AxleBlock where
  count : U8
  presence : U8
  ratings : PerAxle U16
deriving DecidableEq, Repr

/-- A TRUCK entry (section 7.1). -/
structure TruckEntry where
  gain : U16
  pOff : U16
  pMax : U16
  fallback : U16
  lag : U16
  pCal : U16
  margin : U16
  ventMax : U16
deriving DecidableEq, Repr

/-- The ADHESION record (section 5.1), fields in the order of its table. -/
structure AdhesionRec where
  dRef : U16
  aRef : U16
  vFloor : U16
  thSuspect : U16
  thSlide : U16
  thRecover : U16
  cAbs : U16
  nRec : U8
  nLost : U8
  vLockAxle : U16
  vLockRef : U16
  reduceNum : U8
  restoreStep : U16
  aStart : U16
  aMin : U16
  aMax : U16
  stepDown : U16
  stepUp : U16
  axleLoad : U16
deriving DecidableEq, Repr

/-- The THERMAL record (section 3.4). -/
structure ThermalRec where
  pCool : U16
  hReset : U32
  hDerate : U32
  hTrip : U32
deriving DecidableEq, Repr

/-- The BLEND record, in the order of its LOAD form (section 7.1). -/
structure BlendRec where
  dMax : U16
  dEmerg : U16
  eUp : U16
  elecEmerg : U8
  nShort : U8
  tDem : U16
deriving DecidableEq, Repr

/-- A TRIGGER entry (section 7.1). -/
structure TriggerEntry where
  enabled : U8
  cls : U8
  pre : U8
  post : U16
deriving DecidableEq, Repr

/-- The RECORDER record (section 7.1). -/
structure RecorderRec where
  retention : U8
  autoRearm : U8
deriving DecidableEq, Repr

/-- A table set: the eight sections (section 7.1). `entries`, `breakpoints` and `triggers` hold 32, 16
and 12 items. -/
structure TableSet where
  entries : List ClassEntry
  header : ClassHeader
  breakpoints : List Breakpoint
  axleBlock : AxleBlock
  trucks : PerTruck TruckEntry
  adhesion : AdhesionRec
  thermal : ThermalRec
  blend : BlendRec
  triggers : List TriggerEntry
  recorder : RecorderRec
deriving DecidableEq, Repr

/-! ### LOAD forms (R132) -/

/-- The item's LOAD form, fields in the order the chapters list them, most significant byte first. -/
def ClassEntry.bytes (e : ClassEntry) : Bytes :=
  [e.port, e.source, e.kind, e.action, e.role] ++ be16 e.stale
def ClassEntry.ofBytes (b : Bytes) : ClassEntry :=
  ⟨byteAt b 0, byteAt b 1, byteAt b 2, byteAt b 3, byteAt b 4, u16At b 5⟩

def ClassHeader.bytes (h : ClassHeader) : Bytes :=
  [h.node, h.defaultAction] ++ be16 h.statusPeriod
def ClassHeader.ofBytes (b : Bytes) : ClassHeader :=
  ⟨byteAt b 0, byteAt b 1, u16At b 2⟩

def Breakpoint.bytes (p : Breakpoint) : Bytes := be16 p.speed ++ be16 p.effort
def Breakpoint.ofBytes (b : Bytes) : Breakpoint := ⟨u16At b 0, u16At b 2⟩

def AxleBlock.bytes (a : AxleBlock) : Bytes :=
  [a.count, a.presence] ++ be16 a.ratings.a1 ++ be16 a.ratings.a2 ++ be16 a.ratings.a3
    ++ be16 a.ratings.a4 ++ be16 a.ratings.a5 ++ be16 a.ratings.a6
def AxleBlock.ofBytes (b : Bytes) : AxleBlock :=
  ⟨byteAt b 0, byteAt b 1, ⟨u16At b 2, u16At b 4, u16At b 6, u16At b 8, u16At b 10, u16At b 12⟩⟩

def TruckEntry.bytes (t : TruckEntry) : Bytes :=
  be16 t.gain ++ be16 t.pOff ++ be16 t.pMax ++ be16 t.fallback ++ be16 t.lag ++ be16 t.pCal
    ++ be16 t.margin ++ be16 t.ventMax
def TruckEntry.ofBytes (b : Bytes) : TruckEntry :=
  ⟨u16At b 0, u16At b 2, u16At b 4, u16At b 6, u16At b 8, u16At b 10, u16At b 12, u16At b 14⟩

def AdhesionRec.bytes (a : AdhesionRec) : Bytes :=
  be16 a.dRef ++ be16 a.aRef ++ be16 a.vFloor ++ be16 a.thSuspect ++ be16 a.thSlide
    ++ be16 a.thRecover ++ be16 a.cAbs ++ [a.nRec, a.nLost] ++ be16 a.vLockAxle ++ be16 a.vLockRef
    ++ [a.reduceNum] ++ be16 a.restoreStep ++ be16 a.aStart ++ be16 a.aMin ++ be16 a.aMax
    ++ be16 a.stepDown ++ be16 a.stepUp ++ be16 a.axleLoad
def AdhesionRec.ofBytes (b : Bytes) : AdhesionRec :=
  { dRef := u16At b 0, aRef := u16At b 2, vFloor := u16At b 4, thSuspect := u16At b 6,
    thSlide := u16At b 8, thRecover := u16At b 10, cAbs := u16At b 12, nRec := byteAt b 14,
    nLost := byteAt b 15, vLockAxle := u16At b 16, vLockRef := u16At b 18,
    reduceNum := byteAt b 20, restoreStep := u16At b 21, aStart := u16At b 23, aMin := u16At b 25,
    aMax := u16At b 27, stepDown := u16At b 29, stepUp := u16At b 31, axleLoad := u16At b 33 }

def ThermalRec.bytes (t : ThermalRec) : Bytes :=
  be16 t.pCool ++ be32 t.hReset ++ be32 t.hDerate ++ be32 t.hTrip
def ThermalRec.ofBytes (b : Bytes) : ThermalRec := ⟨u16At b 0, u32At b 2, u32At b 6, u32At b 10⟩

def BlendRec.bytes (r : BlendRec) : Bytes :=
  be16 r.dMax ++ be16 r.dEmerg ++ be16 r.eUp ++ [r.elecEmerg, r.nShort] ++ be16 r.tDem
def BlendRec.ofBytes (b : Bytes) : BlendRec :=
  ⟨u16At b 0, u16At b 2, u16At b 4, byteAt b 6, byteAt b 7, u16At b 8⟩

def TriggerEntry.bytes (t : TriggerEntry) : Bytes := [t.enabled, t.cls, t.pre] ++ be16 t.post
def TriggerEntry.ofBytes (b : Bytes) : TriggerEntry :=
  ⟨byteAt b 0, byteAt b 1, byteAt b 2, u16At b 3⟩

def RecorderRec.bytes (r : RecorderRec) : Bytes := [r.retention, r.autoRearm]
def RecorderRec.ofBytes (b : Bytes) : RecorderRec := ⟨byteAt b 0, byteAt b 1⟩

/-! ### Sections and items (section 7.1) -/

/-- The eight sections, by name. -/
inductive Sect where
  | classify
  | capability
  | truck
  | adhesion
  | thermal
  | blend
  | trigger
  | recorder
deriving DecidableEq, Repr

def Sect.all : List Sect :=
  [.classify, .capability, .truck, .adhesion, .thermal, .blend, .trigger, .recorder]

/-- The section code by which orders name a section. -/
def Sect.code : Sect → Nat
  | .classify => 1
  | .capability => 2
  | .truck => 3
  | .adhesion => 4
  | .thermal => 5
  | .blend => 6
  | .trigger => 7
  | .recorder => 8

/-- The section a code names; none for a code outside 1 to 8. -/
def Sect.ofCode (c : U8) : Option Sect := Sect.all.find? (fun x => x.code == c.toNat)

/-- How many items the section has. -/
def Sect.items : Sect → Nat
  | .classify => 33
  | .capability => 17
  | .truck => 2
  | .adhesion => 1
  | .thermal => 1
  | .blend => 1
  | .trigger => 12
  | .recorder => 1

/-- The most items one LOAD may carry. -/
def Sect.mostPerLoad : Sect → Nat
  | .classify => 4
  | .capability => 4
  | .truck => 3
  | .adhesion => 1
  | .thermal => 1
  | .blend => 1
  | .trigger => 4
  | .recorder => 1

/-- The size in bytes of one item. -/
def Sect.itemSize (x : Sect) (i : Nat) : Nat :=
  match x with
  | .classify => if i = 32 then 4 else 7
  | .capability => if i = 16 then 14 else 4
  | .truck => 16
  | .adhesion => 35
  | .thermal => 14
  | .blend => 10
  | .trigger => 5
  | .recorder => 2

/-- The index after an item: after the section's last item it is 0 (R136). -/
def Sect.nextIndex (x : Sect) (i : Nat) : Nat := if i + 1 ≥ x.items then 0 else i + 1

/-- The item indices that `n` items reach from `start` onward, with the wrap of R136. -/
def Sect.reach (x : Sect) : Nat → Nat → List Nat
  | _, 0 => []
  | start, n + 1 => start :: x.reach (x.nextIndex start) n

/-- The index following the last of `n` items from `start`. -/
def Sect.after (x : Sect) : Nat → Nat → Nat
  | start, 0 => start
  | start, n + 1 => x.after (x.nextIndex start) n

/-- An entry with source node 63 and every other field 0: an empty classification entry (section 1.4). -/
def ClassEntry.empty : ClassEntry := ⟨0, 63, 0, 0, 0, 0⟩

/-- A classification entry; an index outside the table reads as empty. -/
def TableSet.entry (t : TableSet) (i : Nat) : ClassEntry := t.entries.getD i ClassEntry.empty
def TableSet.breakpoint (t : TableSet) (i : Nat) : Breakpoint := t.breakpoints.getD i ⟨0, 0⟩
def TableSet.triggerEntry (t : TableSet) (i : Nat) : TriggerEntry := t.triggers.getD i ⟨0, 0, 0, 0⟩

/-- One item in its LOAD form. -/
def TableSet.itemBytes (t : TableSet) (x : Sect) (i : Nat) : Bytes :=
  match x with
  | .classify => if i = 32 then t.header.bytes else (t.entry i).bytes
  | .capability => if i = 16 then t.axleBlock.bytes else (t.breakpoint i).bytes
  | .truck => if i = 0 then t.trucks.a.bytes else t.trucks.b.bytes
  | .adhesion => t.adhesion.bytes
  | .thermal => t.thermal.bytes
  | .blend => t.blend.bytes
  | .trigger => (t.triggerEntry i).bytes
  | .recorder => t.recorder.bytes

/-- One item written from its LOAD form (R136). -/
def TableSet.writeItem (t : TableSet) (x : Sect) (i : Nat) (b : Bytes) : TableSet :=
  match x with
  | .classify =>
    if i = 32 then { t with header := ClassHeader.ofBytes b }
    else { t with entries := t.entries.set i (ClassEntry.ofBytes b) }
  | .capability =>
    if i = 16 then { t with axleBlock := AxleBlock.ofBytes b }
    else { t with breakpoints := t.breakpoints.set i (Breakpoint.ofBytes b) }
  | .truck =>
    if i = 0 then { t with trucks := t.trucks.set .a (TruckEntry.ofBytes b) }
    else { t with trucks := t.trucks.set .b (TruckEntry.ofBytes b) }
  | .adhesion => { t with adhesion := AdhesionRec.ofBytes b }
  | .thermal => { t with thermal := ThermalRec.ofBytes b }
  | .blend => { t with blend := BlendRec.ofBytes b }
  | .trigger => { t with triggers := t.triggers.set i (TriggerEntry.ofBytes b) }
  | .recorder => { t with recorder := RecorderRec.ofBytes b }

/-- The sizes of the items at some indices, added up. -/
def Sect.sizeOf (x : Sect) (is : List Nat) : Nat := (is.map x.itemSize).sum

/-- The items of a LOAD written one at a time, in the order they stand (R136). -/
def TableSet.writeItems (x : Sect) : List Nat → Bytes → TableSet → TableSet
  | [], _, t => t
  | i :: is, b, t =>
    TableSet.writeItems x is (b.drop (x.itemSize i)) (t.writeItem x i (b.take (x.itemSize i)))

/-- The items of one section, in ascending index. -/
def TableSet.sectBytes (t : TableSet) (x : Sect) : Bytes :=
  (List.range x.items).flatMap (t.itemBytes x)

/-- The items of all eight sections, in the order of the section table (R133). -/
def TableSet.bytes (t : TableSet) : Bytes := Sect.all.flatMap t.sectBytes

/-- The set CRC (R133). -/
def TableSet.crc (t : TableSet) : U16 := crc16 t.bytes

/-! ### Named values (R132: the position of the value in its list, from 0) -/

/-- Roles a classification entry may carry (section 1.4). -/
inductive Role where
  | none
  | demand
  | speed
  | inverterA
  | inverterB
  | pressure
  | order
deriving DecidableEq, Repr

/-- The role an entry's byte names; a byte outside the list (which the ROLE check refuses) counts as none. -/
def Role.ofByte (b : U8) : Role :=
  match b.toNat with
  | 1 => .demand
  | 2 => .speed
  | 3 => .inverterA
  | 4 => .inverterB
  | 5 => .pressure
  | 6 => .order
  | _ => .none

/-- The role that stands for an inverter node. -/
def inverterRole : Inverter → Role
  | .a => .inverterA
  | .b => .inverterB

/-- What the classifier does with a matched telegram (R7). -/
inductive Action where
  | forward
  | observe
  | consume
  | drop
deriving DecidableEq, Repr

/-- The action an entry's byte names; a byte outside the list (which the ROLE check refuses) counts as DROP. -/
def Action.ofByte (b : U8) : Action :=
  match b.toNat with
  | 0 => .forward
  | 1 => .observe
  | 2 => .consume
  | _ => .drop

/-- The byte of an arrival port: CAB 0, DRIVE 1. -/
def portByte : Port → U8
  | .cab => 0
  | .drive => 1

/-- The port a byte names. -/
def portOfByte (b : U8) : Option Port :=
  match b.toNat with
  | 0 => some .cab
  | 1 => some .drive
  | _ => Option.none

/-- A non-empty entry: source node 0 to 62 (section 1.4, R138). -/
def ClassEntry.nonEmpty (e : ClassEntry) : Bool := e.source.toNat ≤ 62

def ClassEntry.roleOf (e : ClassEntry) : Role := Role.ofByte e.role
def ClassEntry.actionOf (e : ClassEntry) : Action := Action.ofByte e.action

/-- A non-empty entry whose role is not none: one the source table has a record for (section 1.5). -/
def ClassEntry.roled (e : ClassEntry) : Bool := e.nonEmpty && e.roleOf != .none

/-- The axle is marked present in the per-axle block (section 3.1). -/
def TableSet.present (t : TableSet) (a : Axle) : Bool := t.axleBlock.presence.getLsbD a.bit

/-- The axle's rating as the per-axle block gives it. -/
def TableSet.rating (t : TableSet) (a : Axle) : Nat := (t.axleBlock.ratings.get a).toNat

/-- The unlimited value of an axle (R92), which is also the maximum of its channel (section 2.5): its
rating when present, 0 when absent. -/
def TableSet.unlimited (t : TableSet) (a : Axle) : Nat := if t.present a then t.rating a else 0

/-- The smallest rating among the present axles, 1000 when none is present (section 3.1). -/
def TableSet.smallestRating (t : TableSet) : Nat :=
  match (Axle.all.filter t.present).map t.rating with
  | [] => 1000
  | r :: rs => rs.foldl min r

/-- The stale timeout of an entry; 0 is taken as 1 ms (R9). -/
def ClassEntry.staleTimeout (e : ClassEntry) : LinkTime :=
  BitVec.ofNat 32 (if e.stale.toNat = 0 then 1 else e.stale.toNat)

/-! ### Consistency checks (R138) -/

/-- The checks, in the order in which they are run. -/
inductive CheckCode where
  | role
  | key
  | curve
  | truck
  | adh
  | therm
  | blend
  | trig
  | recorder
deriving DecidableEq, Repr

/-- A failing check result (R137): the code, the section code and the item index (255 for a failure that
concerns no single item). -/
structure CheckFailure where
  code : CheckCode
  sect : Nat
  item : Nat
deriving DecidableEq, Repr

/-- The first index of a list of item indices at which a condition fails. -/
def firstFailing (ok : Nat → Bool) (is : List Nat) : Option Nat := is.find? (fun i => !ok i)

/-- How many non-empty entries carry a role. -/
def TableSet.roleCount (t : TableSet) (r : Role) : Nat :=
  (t.entries.filter (fun e => e.nonEmpty && e.roleOf == r)).length

def TableSet.entryOk (t : TableSet) (i : Nat) : Bool :=
  let e := t.entry i
  !e.nonEmpty || (e.port.toNat ≤ 1 && e.action.toNat ≤ 3 && e.role.toNat ≤ 6)

def TableSet.roleCountsOk (t : TableSet) : Bool :=
  t.roleCount .demand == 1 && t.roleCount .speed == 1 && t.roleCount .inverterA == 1
    && t.roleCount .inverterB == 1 && t.roleCount .pressure == 1
    && 1 ≤ t.roleCount .order && t.roleCount .order ≤ 4

def TableSet.headerOk (t : TableSet) : Bool :=
  t.header.node.toNat ≤ 62 && t.header.defaultAction.toNat ≤ 1
    && 100 ≤ t.header.statusPeriod.toNat && t.header.statusPeriod.toNat ≤ 1000

/-- ROLE: the entries, then the roles over the entries, then the header. -/
def TableSet.checkRole (t : TableSet) : Option CheckFailure :=
  match firstFailing t.entryOk (List.range 32) with
  | some i => some ⟨.role, 1, i⟩
  | none =>
    if !t.roleCountsOk then some ⟨.role, 1, 255⟩
    else if !t.headerOk then some ⟨.role, 1, 32⟩
    else none

/-- Two entries have the same key (arrival port, source node, kind). -/
def ClassEntry.sameKey (e f : ClassEntry) : Bool :=
  e.port == f.port && e.source == f.source && e.kind == f.kind

/-- No earlier non-empty entry has the key of entry `i`. -/
def TableSet.keyOk (t : TableSet) (i : Nat) : Bool :=
  !(t.entry i).nonEmpty
    || (List.range i).all (fun j => !((t.entry j).nonEmpty && (t.entry j).sameKey (t.entry i)))

/-- KEY: the higher-numbered entry of the first pair found, which is taken to be the pair whose higher-numbered entry
is lowest (DESIGN CHOICE, log entry 12). -/
def TableSet.checkKey (t : TableSet) : Option CheckFailure :=
  (firstFailing t.keyOk (List.range 32)).map (fun i => ⟨.key, 1, i⟩)

/-- The number of breakpoints in use. -/
def TableSet.curveCount (t : TableSet) : Nat := t.axleBlock.count.toNat

def TableSet.ratingsOk (t : TableSet) : Bool :=
  Axle.all.all (fun a => !t.present a || (1 ≤ t.rating a && t.rating a ≤ 1000))

/-- The speed of item `i`: 0 for breakpoint 1, above its predecessor's for the others, and at most 16,000. -/
def TableSet.speedOk (t : TableSet) (i : Nat) : Bool :=
  (t.breakpoint i).speed.toNat ≤ 16000
    && (if i = 0 then (t.breakpoint 0).speed.toNat == 0
      else (t.breakpoint (i - 1)).speed.toNat < (t.breakpoint i).speed.toNat)

def TableSet.effortOk (t : TableSet) (i : Nat) : Bool :=
  (t.breakpoint i).effort.toNat ≤ t.smallestRating

/-- What CURVE asks of the breakpoint at item `i`. -/
def TableSet.pointOk (t : TableSet) (i : Nat) : Bool := t.speedOk i && t.effortOk i

/-- What CURVE asks of the per-axle block, item 16. -/
def TableSet.blockOk (t : TableSet) : Bool := 2 ≤ t.curveCount && t.curveCount ≤ 16 && t.ratingsOk

/-- CURVE, over the items in ascending index: the breakpoints in use, each with its speed and its effort, then the
per-axle block (item 16). -/
def TableSet.checkCurve (t : TableSet) : Option CheckFailure :=
  match firstFailing t.pointOk (List.range (min t.curveCount 16)) with
  | some i => some ⟨.curve, 2, i⟩
  | none => if t.blockOk then none else some ⟨.curve, 2, 16⟩

/-- The conditions of the TRUCK check on one entry. -/
def TruckEntry.ok (t : TruckEntry) : Bool :=
  100 ≤ t.gain.toNat && t.gain.toNat ≤ 2000
    && t.pOff.toNat < t.pMax.toNat && t.pMax.toNat ≤ 450
    && t.fallback.toNat ≤ t.pMax.toNat
    && t.pOff.toNat < t.pCal.toNat && t.pCal.toNat ≤ t.pMax.toNat
    && t.lag.toNat ≤ 5000 && t.margin.toNat ≤ 2000
    && 500 ≤ t.ventMax.toNat && t.ventMax.toNat ≤ 10000

def TableSet.checkTruck (t : TableSet) : Option CheckFailure :=
  if !t.trucks.a.ok then some ⟨.truck, 3, 0⟩
  else if !t.trucks.b.ok then some ⟨.truck, 3, 1⟩
  else none

/-- The conditions of the ADH check (section 5.1, R138). -/
def AdhesionRec.ok (a : AdhesionRec) : Bool :=
  1 ≤ a.dRef.toNat && a.dRef.toNat ≤ 10000 && 1 ≤ a.aRef.toNat && a.aRef.toNat ≤ 10000
    && 1 ≤ a.vFloor.toNat && a.vFloor.toNat ≤ 16000
    && 1 ≤ a.thSuspect.toNat && a.thSuspect.toNat ≤ 1000
    && 1 ≤ a.thSlide.toNat && a.thSlide.toNat ≤ 1000 && a.thRecover.toNat ≤ 999
    && 1 ≤ a.cAbs.toNat && a.cAbs.toNat ≤ 16000 && 1 ≤ a.nRec.toNat && 1 ≤ a.nLost.toNat
    && a.vLockAxle.toNat ≤ 16000 && a.vLockRef.toNat ≤ 16000 && a.reduceNum.toNat ≤ 15
    && 1 ≤ a.restoreStep.toNat && a.restoreStep.toNat ≤ 1000
    && a.stepDown.toNat ≤ 400 && a.stepUp.toNat ≤ 400 && a.axleLoad.toNat ≤ 8000
    && a.thRecover.toNat < a.thSuspect.toNat && a.thSuspect.toNat < a.thSlide.toNat
    && a.aMin.toNat ≤ a.aStart.toNat && a.aStart.toNat ≤ a.aMax.toNat && a.aMax.toNat ≤ 400

/-- The conditions of the THERM check. -/
def ThermalRec.ok (t : ThermalRec) : Bool :=
  t.pCool.toNat ≤ 20000 && t.hReset.toNat < t.hDerate.toNat && t.hDerate.toNat < t.hTrip.toNat
    && t.hTrip.toNat ≤ 999999

/-- The conditions of the BLEND check. -/
def BlendRec.ok (r : BlendRec) : Bool :=
  r.dMax.toNat ≤ 8000 && r.dEmerg.toNat ≤ 8000 && 1 ≤ r.eUp.toNat && r.eUp.toNat ≤ 1000
    && 30 ≤ r.tDem.toNat && r.tDem.toNat ≤ 500 && 1 ≤ r.nShort.toNat && r.elecEmerg.toNat ≤ 1

/-- The conditions of the TRIG check on one entry. -/
def TriggerEntry.ok (t : TriggerEntry) : Bool :=
  t.enabled.toNat ≤ 1 && 1 ≤ t.cls.toNat && t.cls.toNat ≤ 3 && t.pre.toNat ≤ 250 && t.post.toNat ≤ 1000

/-- The conditions of the REC check. -/
def RecorderRec.ok (r : RecorderRec) : Bool :=
  [0, 1, 2, 4, 8, 16].contains r.retention.toNat && r.autoRearm.toNat ≤ 1

/-- All checks in the order of the table; the first failure is the result, none is PASS (R138). -/
def TableSet.check (t : TableSet) : Option CheckFailure :=
  t.checkRole
  <|> t.checkKey
  <|> t.checkCurve
  <|> t.checkTruck
  <|> (if t.adhesion.ok then none else some ⟨.adh, 4, 0⟩)
  <|> (if t.thermal.ok then none else some ⟨.therm, 5, 0⟩)
  <|> (if t.blend.ok then none else some ⟨.blend, 6, 0⟩)
  <|> (firstFailing (fun i => (t.triggerEntry i).ok) (List.range 12)).map (fun i => ⟨.trig, 7, i⟩)
  <|> (if t.recorder.ok then none else some ⟨.recorder, 8, 0⟩)

/-! ### The factory set -/

/-- The factory classification entries (section 1.4): six sources of the reference locomotive, the rest empty. -/
def factoryEntries : List ClassEntry :=
  [ ⟨0, 1, 0x10, 2, 1, 200⟩,
    ⟨0, 2, 0x40, 2, 6, 10000⟩,
    ⟨1, 20, 0x20, 1, 2, 100⟩,
    ⟨1, 21, 0x21, 2, 3, 200⟩,
    ⟨1, 22, 0x21, 2, 4, 200⟩,
    ⟨1, 23, 0x22, 2, 5, 200⟩ ] ++ List.replicate 26 ClassEntry.empty

/-- The factory capability curve (R45). -/
def factoryBreakpoints : List Breakpoint :=
  [⟨0, 0⟩, ⟨500, 0⟩, ⟨1000, 400⟩, ⟨2000, 750⟩, ⟨6000, 750⟩, ⟨10000, 450⟩] ++ List.replicate 10 ⟨16000, 250⟩

/-- The factory TRUCK entry (section 7.1). -/
def factoryTruck : TruckEntry :=
  { gain := 1000, pOff := 40, pMax := 450, fallback := 150, lag := 300, pCal := 200, margin := 200,
    ventMax := 3000 }

/-- The factory ADHESION record (section 5.1). -/
def factoryAdhesion : AdhesionRec :=
  { dRef := 432, aRef := 200, vFloor := 500, thSuspect := 40, thSlide := 90, thRecover := 25,
    cAbs := 300, nRec := 5, nLost := 4, vLockAxle := 100, vLockRef := 500, reduceNum := 8,
    restoreStep := 40, aStart := 200, aMin := 80, aMax := 300, stepDown := 30, stepUp := 5,
    axleLoad := 3200 }

/-- The factory trigger table (R155), in the order of the trigger kinds. -/
def factoryTriggers : List TriggerEntry :=
  [⟨1, 3, 250, 1000⟩, ⟨1, 1, 50, 150⟩, ⟨1, 2, 100, 500⟩, ⟨1, 2, 100, 500⟩, ⟨1, 2, 100, 250⟩,
    ⟨1, 2, 250, 500⟩, ⟨1, 2, 100, 250⟩, ⟨1, 2, 100, 250⟩, ⟨1, 1, 100, 250⟩, ⟨1, 1, 50, 100⟩,
    ⟨1, 1, 250, 250⟩, ⟨0, 1, 10, 10⟩]

/-- The factory table set held in profile slot 0 (section 0.4, R145). -/
def factorySet : TableSet :=
  { entries := factoryEntries
    header := ⟨10, 0, 200⟩
    breakpoints := factoryBreakpoints
    axleBlock := ⟨7, 0x3F, PerAxle.const 1000⟩
    trucks := ⟨factoryTruck, factoryTruck⟩
    adhesion := factoryAdhesion
    thermal := ⟨2000, 120000, 150000, 250000⟩
    blend := ⟨6000, 6000, 60, 0, 10, 60⟩
    triggers := factoryTriggers
    recorder := ⟨4, 1⟩ }

end Sys2Proof.Machine
end

