-- ==== Sys2Proof/Machine/Blocks.lean ====
section
/-!
DEFINITION. The data of the twelve blocks (section 0.3): one record per block, with the telegrams, samples,
pages and replies they exchange. All of it is plain data. Machine/State.lean puts the blocks together.
-/

namespace Sys2Proof.Machine

/-! ### Named values shared by the blocks -/

/-- The part operating states (section 2.1), in the order of their codes in samples. -/
inductive PartState where
  | standby
  | active
  | fallback
  | maintenance
deriving DecidableEq, Repr

/-- The part is in control in ACTIVE, FALLBACK and MAINTENANCE (section 2.1). -/
def PartState.inControl : PartState → Bool
  | .standby => false
  | _ => true

/-- Channel modes (section 2.5), in the order of their codes. -/
inductive Mode where
  | off
  | auto
  | manual
  | calibrate
deriving DecidableEq, Repr

/-- Thermal states (section 3.5). -/
inductive Thermal where
  | normal
  | derate
  | trip
deriving DecidableEq, Repr

/-- Slide states (section 5.5), in the order of their codes. -/
inductive SlideState where
  | adhered
  | suspect
  | sliding
  | recovering
  | locked
  | sensorLost
deriving DecidableEq, Repr

/-- Truck actions (section 6.2), in the order of their codes. -/
inductive TruckAction where
  | normal
  | hold
  | vent
  | ventExpired
deriving DecidableEq, Repr

/-- Staging states (section 7.2), in the order of their codes. -/
inductive StagingState where
  | idle
  | loading
  | awaitDecision
  | pendingSwitch
deriving DecidableEq, Repr

/-- Recorder states (section 8.4), in the order of their codes. -/
inductive RecorderState where
  | disarmed
  | armed
  | capturing
deriving DecidableEq, Repr

/-- Trigger kinds (R155), in the order of their items. -/
inductive TriggerKind where
  | emergencyDemand
  | slideEntry
  | lockDetected
  | ventExpired
  | demandLost
  | thermalTrip
  | airResponse
  | inverterLoss
  | shortfall
  | maintMotion
  | manual
  | tableSwitch
deriving DecidableEq, Repr

/-- The two computation events (R152). -/
inductive CompEvent where
  | demand
  | repeatExpiry
deriving DecidableEq, Repr

/-! ### Link interface, classifier and source monitor (chapter 1) -/

/-- A telegram as it stands on the line (section 1.2). -/
structure Telegram where
  dest : U8
  source : U8
  kind : U8
  seq : U8
  payload : Bytes
  check : U16
deriving DecidableEq, Repr

/-- Continuity marks (R9). -/
inductive Mark where
  | resumed
  | inSequence
  | gap
deriving DecidableEq, Repr

/-- Freshness of a source record (section 1.5). -/
inductive Freshness where
  | never
  | fresh
  | stale
deriving DecidableEq, Repr

/-- The key of a classification entry: arrival port, source node, kind (section 1.4). -/
structure Key where
  port : Port
  source : U8
  kind : U8
deriving DecidableEq, Repr

/-- A source record (section 1.5). The sequence and arrival are absent in NEVER, the deadline is present in
FRESH only. The counts saturate at 65535. -/
structure SourceRecord where
  entry : Nat
  key : Key
  role : Role
  freshness : Freshness
  lastSeq : Option U8
  lastArrival : Option LinkTime
  deadline : Option LinkTime
  duplicates : Nat
  gaps : Nat
  contentErrors : Nat
deriving DecidableEq, Repr

/-- The contents of a BRAKE_CMD (section 1.2, R109). -/
structure BrakeCmd where
  inControl : Bool
  efforts : PerAxle Nat
  pressures : PerTruck Nat
  actions : PerTruck TruckAction
  seq : U16
deriving DecidableEq, Repr

/-- The contents of a PART_STATUS (R197). -/
structure PartStatus where
  partState : PartState
  staging : StagingState
  thermal : Thermal
  anyAttention : Bool
  summary : BitVec 6
  flags : BitVec 17
  attention : PerAxle Bool
  slide : PerAxle SlideState
  vref : Nat
  heat : Nat
  shortfall : Nat
  recorder : RecorderState
  newest : Nat
  missedDisarmed : Nat
  missedFull : Nat
  slot : U8
deriving DecidableEq, Repr

/-- The three counts of one port (R16), each 0 to 65535, saturating. -/
structure PortCounts where
  checkErrors : Nat
  unauthorised : Nat
  queueDrops : Nat
deriving DecidableEq, Repr

/-! ### Control unit (chapter 2) -/

/-- The demand record but for its consecutive-good count (section 2.3); absent after a reset. -/
structure DemandRecord where
  raw : Nat
  emergency : Bool
  clamped : Nat
  arrival : LinkTime
deriving DecidableEq, Repr

/-- The demand-loss timer (section 2.4). -/
inductive DemandTimer where
  | stopped
  | waiting (deadline : LinkTime)
  | repeating (deadline : LinkTime)
deriving DecidableEq, Repr

/-- One entry of the channel table (section 2.5). -/
structure ChannelEntry where
  mode : Mode
  manual : Nat
deriving DecidableEq, Repr

/-- The control unit. -/
structure Control where
  partState : PartState
  demand : Option DemandRecord
  goodCount : Nat
  timer : DemandTimer
  axles : PerAxle ChannelEntry
  trucks : PerTruck ChannelEntry
deriving DecidableEq, Repr

/-! ### Capability unit (chapter 3) -/

/-- What the capability unit keeps of one axle's inverter (section 3.3). -/
structure InverterState where
  limit : Nat
  achieved : Nat
  fault : Bool
deriving DecidableEq, Repr

/-- The capability unit. The derate factor follows from `heat`, `thermal` and the active set (R56). -/
structure Capability where
  inverters : PerAxle InverterState
  heat : Nat
  remIn : Nat
  remCool : Nat
  thermal : Thermal
deriving DecidableEq, Repr

/-! ### Blender (chapter 4) -/

/-- The order of allocation (section 4.5). -/
inductive BlendOrder where
  | electricFirst
  | airFirst
  | fallback
deriving DecidableEq, Repr

/-- The allocation table (R66), with the mode under which each entry was written. -/
structure AllocTable where
  efforts : PerAxle Nat
  air : PerTruck Nat
  pressures : PerTruck Nat
  axleModes : PerAxle Mode
  truckModes : PerTruck Mode
deriving DecidableEq, Repr

/-- One axle's part of the computation record (R80). -/
structure AxleComp where
  mode : Mode
  ceiling : Nat
  effective : Option Nat
  manual : Option Nat
  alloc : Nat
deriving DecidableEq, Repr

/-- One truck's part of the computation record (R80). -/
structure TruckComp where
  mode : Mode
  action : TruckAction
  cap : Nat
  airCeiling : Option Nat
  manual : Option Nat
  alloc : Nat
  pressure : Nat
  airEffort : Nat
deriving DecidableEq, Repr

/-- The computation record (R80). -/
structure CompRecord where
  number : Nat
  time : LinkTime
  partState : PartState
  order : BlendOrder
  setNumber : U16
  switchMark : Bool
  demand : Nat
  emergency : Bool
  manual : Nat
  residual : Nat
  vref : Nat
  derate : Nat
  thermal : Thermal
  aEst : Nat
  axles : PerAxle AxleComp
  trucks : PerTruck TruckComp
  electric : Nat
  air : Nat
  shortfall : Nat
  short : Bool
  shortRun : Nat
deriving DecidableEq, Repr

/-- The blender. -/
structure Blender where
  alloc : AllocTable
  record : Option CompRecord
  number : Nat
  shortRun : Nat
deriving DecidableEq, Repr

/-! ### Slide monitor (chapter 5) -/

/-- A slide record (R92). -/
structure SlideRecord where
  state : SlideState
  limit : Nat
  consecutive : Nat
  invalid : Nat
  entryTime : LinkTime
  speed : Option Nat
  creep : Option Nat
  relCreep : Option Nat
deriving DecidableEq, Repr

/-- The slide monitor. -/
structure Slide where
  vref : Nat
  lastSampleTime : Option U16
  axles : PerAxle SlideRecord
  aEst : Nat
  recoveryDeadline : LinkTime
  attention : PerAxle Bool
deriving DecidableEq, Repr

/-! ### Command builder (chapter 6) -/

/-- The last emitted command set (R109). -/
structure LastSet where
  cmd : BrakeCmd
  time : LinkTime
deriving DecidableEq, Repr

/-- A truck action record: the hold pressure is present in HOLD, the vent deadline in VENT. -/
structure ActionRecord where
  action : TruckAction
  hold : Option Nat
  vent : Option LinkTime
deriving DecidableEq, Repr

/-- A truck's last feedback (R120). An invalid one keeps no arrival time (DESIGN CHOICE, log entry 41). -/
inductive Feedback where
  | absent
  | invalid
  | valid (kPa : Nat) (time : LinkTime)
deriving DecidableEq, Repr

/-- Supervision states (R121). -/
inductive SupState where
  | idle
  | armed (deadline : LinkTime)
  | late
  | suspended
deriving DecidableEq, Repr

/-- A truck's supervision record (R121). -/
structure Supervision where
  state : SupState
  reference : Nat
deriving DecidableEq, Repr

/-- Calibration phases (R125); in STEP with the step time. -/
inductive CalPhase where
  | settle
  | step
deriving DecidableEq, Repr

/-- The calibration record (R124). `since` is the link time at which the phase began; in STEP it is the
step time (R125). `pid` is the reply position of the source and `tag` the order's tag. -/
structure Calibration where
  truck : Truck
  phase : CalPhase
  since : LinkTime
  pOff : Nat
  pCal : Nat
  threshold : Nat
  pid : Nat
  tag : U8
deriving DecidableEq, Repr

/-- The command builder. -/
structure Builder where
  last : LastSet
  copy : PerAxle SlideState
  trucks : PerTruck ActionRecord
  feedback : PerTruck Feedback
  supervision : PerTruck Supervision
  calibration : Option Calibration
deriving DecidableEq, Repr

/-! ### Table store (chapter 7) -/

/-- The active set with its identity (R133). -/
structure ActiveSet where
  tables : TableSet
  number : U16
  crc : U16
deriving DecidableEq, Repr

/-- Staging (section 7.2): the state with the staged set, its CRC and its check result (none is PASS). -/
inductive Staging where
  | idle
  | loading (tables : TableSet)
  | awaitDecision (tables : TableSet) (crc : U16) (result : Option CheckFailure)
  | pendingSwitch (tables : TableSet) (crc : U16)
deriving DecidableEq, Repr

/-- A user profile slot (R145). A slot whose state is WRITING is corrupted whatever it holds. -/
inductive Slot where
  | empty
  | writing
  | written (number : U16) (tables : TableSet) (crc : U16)
deriving DecidableEq, Repr

/-- The three user slots. -/
structure UserSlots where
  s1 : Slot
  s2 : Slot
  s3 : Slot
deriving DecidableEq, Repr

/-- The save record (R147): the slot being written and the snapshot. The slot number 0 is the selection
write alone. -/
structure SaveRecord where
  slot : Fin 4
  snapshot : ActiveSet
  pid : Nat
  tag : U8
deriving DecidableEq, Repr

/-- The table store. Slot 0 is read-only memory and holds the factory set. -/
structure Tables where
  active : ActiveSet
  staging : Staging
  slots : UserSlots
  selection : Fin 4
  save : Option SaveRecord
deriving DecidableEq, Repr

/-! ### Capture unit (chapter 8) -/

/-- A sample (R152); the fields whose value is not known are absent (R153). `demand` holds raw demand,
clamped demand and EMERGENCY. -/
structure Sample where
  index : U32
  time : LinkTime
  event : CompEvent
  partState : PartState
  demand : Option (Nat × Nat × Bool)
  vref : Nat
  speeds : PerAxle (Option Nat)
  slide : PerAxle SlideState
  efforts : PerAxle Nat
  pressures : PerTruck Nat
  feedback : PerTruck (Option Nat)
  actions : PerTruck TruckAction
  heat : Nat
  thermal : Thermal
  shortfall : Option Nat
deriving DecidableEq, Repr

/-- Why a capture closed (R162). -/
inductive CloseReason where
  | postDone
  | lengthCap
deriving DecidableEq, Repr

/-- An entry of the extra-trigger list (R160). -/
structure ExtraTrigger where
  kind : TriggerKind
  cls : Nat
  time : LinkTime
  index : U32
deriving DecidableEq, Repr

/-- The phase of a capture with what is present in FLUSHING only: the last sample index and the reason. -/
inductive CapturePhase where
  | collecting
  | flushing (last : U32) (reason : CloseReason)
deriving DecidableEq, Repr

/-- The data of an OPEN page (section 9.1.1, R159). -/
structure OpenData where
  incident : Nat
  kind : TriggerKind
  cls : Nat
  time : LinkTime
  index : U32
  pre : Nat
  setNumber : U16
  setCrc : U16
  partState : PartState
deriving DecidableEq, Repr

/-- The capture record (section 8.4). `opening` is what the OPEN page records, as it stood at the start (R159). -/
structure CaptureRecord where
  incident : Nat
  kind : TriggerKind
  time : LinkTime
  index : U32
  cls : Nat
  pre : Nat
  first : U32
  countdown : Nat
  post : Nat
  cursor : U32
  nextPage : Nat
  lost : Nat
  extras : List ExtraTrigger
  extraCount : Nat
  rearm : Bool
  phase : CapturePhase
  opening : OpenData
deriving DecidableEq, Repr

/-- The capture unit. `ring` holds the samples oldest first. -/
structure Capture where
  counter : U32
  ring : List Sample
  recorder : RecorderState
  record : Option CaptureRecord
  missedDisarmed : Nat
  missedFull : Nat
deriving DecidableEq, Repr

/-! ### Record store (chapter 9) -/

/-- The data of a CLOSE page (section 9.1.1, R163). -/
structure CloseData where
  post : Nat
  lost : Nat
  cls : Nat
  extraCount : Nat
  reason : CloseReason
  extras : List ExtraTrigger
deriving DecidableEq, Repr

/-- The kind of a page with its data. -/
inductive PageBody where
  | opening (d : OpenData)
  | samples (l : List Sample)
  | closing (d : CloseData)
deriving DecidableEq, Repr

/-- A page as the capture unit builds it (R163). -/
structure BuiltPage where
  incident : Nat
  seq : Nat
  body : PageBody
deriving DecidableEq, Repr

/-- A page in the commit queue, with the attempts already made at it (R174). -/
structure QueuedPage where
  page : BuiltPage
  attempts : Nat
deriving DecidableEq, Repr

/-- The place of a page: bank 0 to 15, page 0 to 63. -/
structure PageAddr where
  bank : Nat
  page : Nat
deriving DecidableEq, Repr

/-- Bank states (R171). -/
inductive BankState where
  | erased
  | writing
  | filled
  | erasing
  | retired
deriving DecidableEq, Repr

/-- One bank of the bank table (R171). The write pointer counts in WRITING only, and is 0 elsewhere. -/
structure BankEntry where
  state : BankState
  fillSeq : Nat
  mismatch : Nat
  pointer : Nat
deriving DecidableEq, Repr

/-- Directory entry states (R178). -/
inductive EntryState where
  | capturing
  | closed
  | unclosed
deriving DecidableEq, Repr

/-- What a CLOSE page gives its directory entry (R178). `closeLost` is the CLOSE page's lost count (for an
entry the scan builds, the lost count of R180). -/
structure CloseInfo where
  post : Nat
  closeLost : Nat
  extraCount : Nat
  reason : CloseReason
deriving DecidableEq, Repr

/-- A directory entry (R178). `close` is present in CLOSED. `dropped` is the record's dropped-sample count
(R174), `committed` the committed-sample count of R173, `lastPage` the record's last committed page, and
`openDropped` says that its OPEN page was dropped. -/
structure DirEntry where
  incident : Nat
  state : EntryState
  kind : TriggerKind
  cls : Nat
  time : LinkTime
  index : U32
  firstPage : Option PageAddr
  pageCount : Nat
  banks : List Nat
  pre : Nat
  close : Option CloseInfo
  dropped : Nat
  committed : Nat
  lastPage : Option PageAddr
  openDropped : Bool
deriving DecidableEq, Repr

/-- The operation in progress on the store's memory (R172), with its place. -/
inductive StoreOp where
  | idle
  | commit (addr : PageAddr)
  | read (addr : PageAddr)
  | erase (bank : Nat)
deriving DecidableEq, Repr

/-- A page that has been read for readout, with the samples that lie on the pages before it (R182). -/
structure ReadPlace where
  addr : PageAddr
  counted : Nat
deriving DecidableEq, Repr

/-- The readout cursor (R183). `place` is the page last read on the way to the item, with the samples counted before it,
and absent when no page has been read (DESIGN CHOICE, log entry 59). -/
structure ReadCursor where
  incident : Nat
  item : Nat
  place : Option ReadPlace
deriving DecidableEq, Repr

/-- A readout walk under way or waiting for its page read (R182, R183). `keep` says whether the outcome sets
the cursor (READ_NEXT, or READ_RECORD with its continue flag). -/
structure Walk where
  incident : Nat
  item : Nat
  keep : Bool
  place : ReadPlace
deriving DecidableEq, Repr

/-- What the long order in the slot is waiting for in the record store. -/
inductive StoreJob where
  | scanRead (incident : Nat) (item : Nat) (keep : Bool)   -- READ_RECORD, waiting for the scan (R180)
  | scanNext                                               -- READ_NEXT, waiting for the scan
  | scanList (start : Nat)                                 -- LIST_RECORDS, waiting for the scan
  | scanClear                                              -- CLEAR_STORE, waiting for the scan
  | walk (w : Walk)                                        -- a page read waiting or in progress
  | clearing (removed : Nat) (banks : List Nat) (erased : Nat) (failed : Nat)  -- CLEAR_STORE's erases still to end (R185)
deriving DecidableEq, Repr

/-- Scan states (section 9.6). -/
inductive ScanState where
  | scanning
  | done
deriving DecidableEq, Repr

/-- The record store. `pages` is the non-volatile memory of the 16 banks: (64 × bank + page, bytes) pairs in
canonical form, an unlisted page being erased. `retireMarks` holds the banks with a retirement mark. `banks`
is the bank table, bank 0 first. `erases` lists the ERASING banks whose erase waits or is in progress, in the
order in which they were chosen. `nextIncident` is 2^32, which is never given, once the last number has been (DESIGN
CHOICE, log entry 50). `lastWriting` is the bank that was last WRITING. -/
structure Store where
  pages : List (Nat × Bytes)
  retireMarks : List Nat
  banks : List BankEntry
  queue : List QueuedPage
  directory : List DirEntry
  nextIncident : Nat
  pins : List Nat
  cursor : Option ReadCursor
  scan : ScanState
  op : StoreOp
  erases : List Nat
  lastWriting : Nat
  job : Option StoreJob
deriving DecidableEq, Repr

/-! ### Orders and replies (chapter 10) -/

/-- The orders of the table in section 10.1. -/
inductive OrderName where
  | linkCounts
  | inquireSource
  | engage
  | releaseControl
  | enterMaint
  | leaveMaint
  | setMode
  | setValue
  | inquireChannel
  | inquireCapability
  | inquireBlend
  | clearAttention
  | inquireSlide
  | calibrate
  | inquireCommand
  | load
  | accept
  | reject
  | abandon
  | readTable
  | listProfiles
  | saveProfile
  | loadProfile
  | arm
  | disarm
  | trigger
  | readRing
  | inquireRecorder
  | readRecord
  | readNext
  | listRecords
  | pinRecord
  | unpinRecord
  | clearStore
  | inquireStore
  | inquire
  | clearFaults
  | restart
deriving DecidableEq, Repr

/-- Results, in the order of their codes (section 10.3). -/
inductive Result where
  | done
  | refusedState
  | refusedArg
  | refusedBusy
  | valueHeld
  | checkFailed
  | noDemand
  | demandNonzero
  | captureActive
  | busy
  | notYet
  | recordGone
  | endOfRecord
  | dataCheck
  | calTimeout
  | calAborted
  | unknownOrder
deriving DecidableEq, Repr

/-- The inquiry record of a channel (R43). `lag` is absent for an axle channel. -/
structure ChannelInfo where
  channel : Nat
  present : Bool
  modes : List Mode
  minimum : Nat
  maximum : Nat
  mode : Mode
  manual : Nat
  lag : Option Nat
deriving DecidableEq, Repr

/-- The source record as INQUIRE_SOURCE gives it (R17). -/
structure SourceInfo where
  role : Role
  freshness : Freshness
  lastSeq : Option U8
  lastArrival : Option LinkTime
  timeLeft : Nat
  duplicates : Nat
  gaps : Nat
  contentErrors : Nat
deriving DecidableEq, Repr

/-- One axle as INQUIRE_CAPABILITY gives it (R60). -/
structure AxleCapInfo where
  present : Bool
  rating : Nat
  limit : Nat
  achieved : Nat
  fault : Bool
deriving DecidableEq, Repr

/-- The capability unit's state as INQUIRE_CAPABILITY gives it (R60). -/
structure CapabilityInfo where
  axles : PerAxle AxleCapInfo
  inverterA : Freshness
  inverterB : Freshness
  heat : Nat
  remIn : Nat
  remCool : Nat
  thermal : Thermal
  derate : Nat
  curve : Nat
  derated : Nat
deriving DecidableEq, Repr

/-- The slide monitor's state as INQUIRE_SLIDE gives it (R107). -/
structure SlideInfo where
  vref : Nat
  lastSampleTime : Option U16
  aEst : Nat
  toRecovery : Nat
  attention : PerAxle Bool
  axles : PerAxle SlideRecord
deriving DecidableEq, Repr

/-- One truck as INQUIRE_COMMAND gives it (R130). -/
structure TruckCmdInfo where
  action : TruckAction
  hold : Option Nat
  ventLeft : Nat
  feedback : Feedback
  supervision : SupState
  reference : Nat
  deadlineLeft : Nat
deriving DecidableEq, Repr

/-- The command builder's state as INQUIRE_COMMAND gives it (R130); the calibration as truck, phase, time
elapsed in the phase and threshold. -/
structure CommandInfo where
  last : LastSet
  trucks : PerTruck TruckCmdInfo
  calibration : Option (Truck × CalPhase × Nat × Nat)
deriving DecidableEq, Repr

/-- The identity READ_TABLE gives (R144): of the active set, of a checked staged set, or marked absent. -/
inductive SetIdentity where
  | active (number : U16) (crc : U16)
  | staged (crc : U16) (result : Option CheckFailure)
  | absent
deriving DecidableEq, Repr

/-- A slot's condition as LIST_PROFILES gives it (R146), with number and set CRC when valid. -/
inductive SlotInfo where
  | empty
  | valid (number : U16) (crc : U16)
  | corrupted
deriving DecidableEq, Repr

/-- The capture in progress as INQUIRE_RECORDER gives it (R168). -/
structure CaptureInfo where
  flushing : Bool
  incident : Nat
  kind : TriggerKind
  cls : Nat
  pre : Nat
  post : Nat
  countdown : Nat
  cursor : U32
  nextPage : Nat
  lost : Nat
  extraCount : Nat
deriving DecidableEq, Repr

/-- The capture unit's state as INQUIRE_RECORDER gives it (R168). -/
structure RecorderInfo where
  recorder : RecorderState
  fill : Nat
  newest : Option U32
  counter : U32
  missedDisarmed : Nat
  missedFull : Nat
  capture : Option CaptureInfo
deriving DecidableEq, Repr

/-- The outcome TRIGGER gives (R161). -/
inductive TriggerOutcome where
  | started (incident : Nat)
  | missedDisarmed
  | missedFull
  | ignored
deriving DecidableEq, Repr

/-- A directory entry as LIST_RECORDS gives it (R178, R184). -/
structure EntryInfo where
  incident : Nat
  state : EntryState
  kind : TriggerKind
  cls : Nat
  time : LinkTime
  index : U32
  firstPage : Option PageAddr
  pageCount : Nat
  banks : List Nat
  pre : Nat
  post : Option Nat
  lost : Option Nat
  extraCount : Option Nat
  pinned : Bool
  reason : Option CloseReason
deriving DecidableEq, Repr

/-- The record store's state as INQUIRE_STORE gives it (R186). `head` is the page sequence and the attempt of
the page at the head of the commit queue. -/
structure StoreInfo where
  scan : ScanState
  banks : List BankEntry
  writable : Nat
  queued : Nat
  head : Option (Nat × Nat)
  op : StoreOp
  nextIncident : Nat
  pins : List Nat
  cursor : Option ReadCursor
deriving DecidableEq, Repr

/-- The part's identity and counts as INQUIRE gives them (R194); `discards` pairs entry indices with
order-discard counts. -/
structure PartInfo where
  vendor : U16
  part : U16
  revision : Nat
  setNumber : U16
  setCrc : U16
  selection : Fin 4
  staging : StagingState
  restarts : Nat
  discards : List (Nat × Nat)
deriving DecidableEq, Repr

/-- What a reply carries, by the rule of the order it answers. The rules name the fields and, but for
samples, page data and LOAD-form items, give them no byte layout: replies are kept as fields. -/
inductive ReplyData where
  | empty
  | orderCode (code : U8)
  | linkCounts (cab : PortCounts) (drive : PortCounts)
  | source (i : SourceInfo)
  | partState (p : PartState)
  | channelMode (channel : Nat) (mode : Mode) (manual : Nat)
  | manualValue (v : Nat)
  | channel (i : ChannelInfo)
  | capability (i : CapabilityInfo)
  | blend (r : CompRecord) (a : AllocTable)
  | attention (mask : PerAxle Bool)
  | slide (i : SlideInfo)
  | command (i : CommandInfo)
  | calibrated (channel : Nat) (lag : Nat)
  | calibrationEnded (channel : Nat)
  | nextItem (sect : Nat) (index : Nat)
  | checked (result : Option CheckFailure) (crc : U16)
  | checkedProfile (result : Option CheckFailure) (crc : U16) (number : U16)
  | checkResult (result : Option CheckFailure)
  | accepted (staging : StagingState) (number : U16) (crc : U16)
  | pendingAccept (staging : StagingState)
  | items (identity : SetIdentity) (bytes : Bytes)
  | profiles (slots : List SlotInfo) (selection : Fin 4) (writing : Option (Fin 4))
  | slotSaved (slot : Fin 4) (number : U16) (crc : U16)
  | slotNumber (slot : Nat)
  | recorderState (r : RecorderState)
  | triggerOutcome (o : TriggerOutcome)
  | ringSample (fill : Nat) (offset : Nat) (s : Sample)
  | recorder (i : RecorderInfo)
  | item (index : Nat) (addr : PageAddr) (bytes : Bytes)
  | readFailed (index : Nat) (addr : Option PageAddr)
  | records (count : Nat) (entries : List EntryInfo)
  | pins (pinned : Bool) (held : Nat)
  | cleared (removed : Nat) (erased : Nat) (failed : Nat)
  | storeInfo (i : StoreInfo)
  | partInfo (i : PartInfo)
  | flags (f : BitVec 17)
deriving DecidableEq, Repr

/-- A reply as produced (R191): tag, result and data, fixed from then on. `code` is the name of the order it
answers, which is not sent. -/
structure Reply where
  tag : U8
  code : U8
  result : Result
  data : ReplyData
deriving DecidableEq, Repr

/-- One REPLY telegram: a fragment of a reply, for a reply position. -/
structure ReplyFragment where
  pid : Nat
  reply : Reply
  number : Nat
deriving DecidableEq, Repr

/-- A telegram of the part's own as it waits in a queue (R12). -/
inductive OwnTelegram where
  | brakeCmd (c : BrakeCmd)
  | partStatus (p : PartStatus)
  | reply (f : ReplyFragment)
deriving DecidableEq, Repr

/-- A telegram on the line: an own one with the header fields written when its transmission began (R3), or a
forwarded one exactly as received. -/
inductive Transmission where
  | own (dest : U8) (source : U8) (seq : U8) (t : OwnTelegram)
  | forwarded (t : Telegram)
deriving DecidableEq, Repr

/-- One port: its counts, its output queue in two classes, oldest first (R12), its transmitter (none: idle)
and its own-sequence counters (R3). `cmdSeq` counts BRAKE_CMD on the drive port and PART_STATUS on the cab
port. -/
structure PortState where
  counts : PortCounts
  own : List OwnTelegram
  fwd : List Telegram
  tx : Option Transmission
  cmdSeq : U8
  replySeq : U8
deriving DecidableEq, Repr

/-- A held order (R190): tag, order name byte and argument bytes. -/
structure HeldOrder where
  tag : U8
  code : U8
  args : Bytes
deriving DecidableEq, Repr

/-- A reply position (R190, R193), with the port and the node of its management source. `entry` is the index
of its ORDER entry. `queued` is QUEUED, otherwise CLEAR. `departing` marks the position of a removed record.
`fresh` marks a position begun while a departing one exists: its orders are held. -/
structure Position where
  pid : Nat
  entry : Nat
  key : Key
  queued : Bool
  held : Option HeldOrder
  deferred : Option Reply
  discards : Nat
  departing : Bool
  fresh : Bool
deriving DecidableEq, Repr

/-- The occupant of the long-order slot (R192): its name, its tag and its source's reply position. -/
structure LongOrder where
  name : OrderName
  tag : U8
  pid : Nat
deriving DecidableEq, Repr

/-- What a change of is reported to the order handler (R197): the part state, the class summary and
any-attention. -/
structure StatusKey where
  partState : PartState
  summary : BitVec 6
  anyAttention : Bool
deriving DecidableEq, Repr

/-- The order handler. `faults` holds the 17 flags by the bits they have in PART_STATUS. `statusDeadline` is
absent until the start-up load. `restarting` is set when a RESTART has been taken (R198). `nextPid` numbers
the reply positions. `reported` is what the last change report carried, absent while a change that was undone again
is still to be reported (R196). -/
structure Orders where
  slot : Option LongOrder
  positions : List Position
  faults : BitVec 17
  statusDeadline : Option LinkTime
  restarts : Nat
  restarting : Bool
  nextPid : Nat
  reported : Option StatusKey
deriving DecidableEq, Repr

end Sys2Proof.Machine
end

