-- ==== Sys2Proof/Config.lean ====
section
/-!
DEFINITION. What the spec leaves open for the whole part: the free values of the model, and the fixed sizes of
the part's stores.
-/

namespace Sys2Proof

/-- FREE VALUE (log entry 4): the bytes of a reply's data to which the spec gives no layout, by their place. It lists
the fields of replies without their bytes. Of a reply that carries a sample, an item or LOAD items they are the fields
before these. -/
opaque Config.replyByte : Machine.ReplyData → Nat → U8
/-- FREE VALUE (log entry 4): how many such bytes a reply has, within the room that its telegrams give (R191). -/
opaque Config.replyLength : Machine.ReplyData → Nat

/-- FREE VALUE (log entry 55): the fill sequence of a bank that becomes WRITING with 4,294,967,295 in the table already,
where one more than the highest lies outside the range (R171). The fill sequences of the table are given. -/
opaque Config.fillAfterLast : List Nat → BitVec 32

/-- FREE VALUE (log entry 56): the lost count of a scanned record that holds more samples than pre_count plus post count,
where the difference of R180 lies below 0. That sum and the samples held are given. -/
opaque Config.lostOfMore : Nat → Nat → Nat

/-- FREE VALUE (log entry 60): the trigger kind that the scan reads from an OPEN page whose kind byte, which is given,
names none. -/
opaque Config.kindOfOther : Nat → Fin 12
/-- FREE VALUE (log entry 60): whether the scan reads LENGTH_CAP, else POST_DONE, from a CLOSE page whose reason byte, which
is given, names neither. -/
opaque Config.lengthCapOfOther : U8 → Bool

/-- Entries of an output queue (R12). -/
def Config.queueSize : Nat := 12
/-- Samples of the pre-trigger ring (R154). -/
def Config.ringSize : Nat := 250
/-- Samples of the longest record (R162). -/
def Config.lengthCap : Nat := 1250
/-- Pages of the largest record (R158). -/
def Config.recordPages : Nat := 127
/-- Samples of a full SAMPLE page (R163). -/
def Config.pageSamples : Nat := 10
/-- Pages of the commit queue (R173). -/
def Config.commitQueue : Nat := 4
/-- Entries of the directory (R178). -/
def Config.directorySize : Nat := 48
/-- Entries of the pin list (R184). -/
def Config.pinListSize : Nat := 8
/-- Banks and pages of the record store (chapter 9). -/
def Config.bankCount : Nat := 16
def Config.bankPages : Nat := 64
/-- Bytes of a page (section 9.1.1). -/
def Config.pageSize : Nat := 590

end Sys2Proof
end

