-- ==== Sys2Proof/Machine/Reset.lean ====
section
/-!
DEFINITION. The value every block's state takes after a reset (R18, R44, R61, R83, R108, R131, R151, R169,
R187, R199), under the table set loaded at start-up.
-/

namespace Sys2Proof.Machine

/-- A port after a reset (R18): counters 0, queue empty, transmitter idle. -/
def PortState.reset : PortState :=
  { counts := ⟨0, 0, 0⟩, own := [], fwd := [], tx := none, cmdSeq := 0, replySeq := 0 }

/-- The key of an entry, when its port byte names a port. -/
def ClassEntry.key (e : ClassEntry) : Option Key := (portOfByte e.port).map (fun p => ⟨p, e.source, e.kind⟩)

/-- A record for an entry, in NEVER with zero counts (R11, R18). -/
def SourceRecord.initial (i : Nat) (k : Key) (r : Role) : SourceRecord :=
  { entry := i, key := k, role := r, freshness := .never, lastSeq := none, lastArrival := none,
    deadline := none, duplicates := 0, gaps := 0, contentErrors := 0 }

/-- The records of a table: one for each non-empty entry with a role, in ascending entry index (section 1.5). -/
def initialSources (t : TableSet) : List SourceRecord :=
  (List.range 32).filterMap (fun i =>
    if (t.entry i).roled then (t.entry i).key.map (fun k => SourceRecord.initial i k (t.entry i).roleOf)
    else none)

/-- The control unit after a reset (R44). -/
def Control.reset (t : TableSet) : Control :=
  { partState := .standby, demand := none, goodCount := 0, timer := .stopped
    axles := PerAxle.ofFn (fun a => ⟨if t.present a then .auto else .off, 0⟩)
    trucks := ⟨⟨.auto, 0⟩, ⟨.auto, 0⟩⟩ }

/-- The capability unit after a reset (R61). -/
def Capability.reset : Capability :=
  { inverters := PerAxle.const ⟨0, 0, false⟩, heat := 0, remIn := 0, remCool := 0, thermal := .normal }

/-- The blender after a reset (R83). The modes in the allocation table are those of the channel table. -/
def Blender.reset (t : TableSet) : Blender :=
  { alloc :=
      { efforts := PerAxle.const 0, air := ⟨0, 0⟩, pressures := ⟨0, 0⟩
        axleModes := PerAxle.ofFn (fun a => if t.present a then .auto else .off)
        truckModes := ⟨.auto, .auto⟩ }
    record := none, number := 0, shortRun := 0 }

/-- The slide monitor after a reset (R108). -/
def Slide.reset (t : TableSet) : Slide :=
  { vref := 0, lastSampleTime := none
    axles := PerAxle.ofFn (fun a =>
      { state := .adhered, limit := t.unlimited a, consecutive := 0, invalid := 0, entryTime := 0,
        speed := none, creep := none, relCreep := none })
    aEst := t.adhesion.aStart.toNat, recoveryDeadline := 1000, attention := PerAxle.const false }

/-- The command builder after a reset (R131). -/
def Builder.reset : Builder :=
  { last :=
      { cmd := { inControl := false, efforts := PerAxle.const 0, pressures := ⟨0, 0⟩,
                 actions := ⟨.normal, .normal⟩, seq := 0 }
        time := 0 }
    copy := PerAxle.const .adhered
    trucks := ⟨⟨.normal, none, none⟩, ⟨.normal, none, none⟩⟩
    feedback := ⟨.absent, .absent⟩
    supervision := ⟨⟨.suspended, 0⟩, ⟨.suspended, 0⟩⟩
    calibration := none }

/-- The table store after a reset and its start-up load (R151): slots and selection as they stood. -/
def Tables.reset (t : TableSet) (number : U16) (slots : UserSlots) (selection : Fin 4) : Tables :=
  { active := ⟨t, number, t.crc⟩, staging := .idle, slots := slots, selection := selection, save := none }

/-- The capture unit after a reset (R169). -/
def Capture.reset : Capture :=
  { counter := 0, ring := [], recorder := .armed, record := none, missedDisarmed := 0, missedFull := 0 }

/-- A bank of which every page is erased, as the scan finds it (R179). -/
def BankEntry.erased : BankEntry := ⟨.erased, 0, 0, 0⟩

/-- The record store of a part that holds no page, after a reset (R187). -/
def Store.blank : Store :=
  { pages := [], retireMarks := [], banks := List.replicate 16 BankEntry.erased, queue := [], directory := [],
    nextIncident := 1, pins := [], cursor := none, scan := .scanning, op := .idle, erases := [],
    lastWriting := 15, job := none }

/-- The reply positions of the ORDER records, CLEAR and numbered from `pid` on (R199). -/
def initialPositions : Nat → List SourceRecord → List Position
  | _, [] => []
  | pid, r :: rs =>
    if r.role == .order then
      { pid := pid, entry := r.entry, key := r.key, queued := false, held := none, deferred := none,
        discards := 0, departing := false, fresh := false } :: initialPositions (pid + 1) rs
    else initialPositions pid rs

/-- The order handler after a reset (R199). -/
def Orders.reset (sources : List SourceRecord) (restarts : Nat) : Orders :=
  { slot := none, positions := initialPositions 0 sources, faults := 0, statusDeadline := none,
    restarts := restarts, restarting := false, nextPid := (initialPositions 0 sources).length
    reported := some ⟨.standby, 0, false⟩ }

end Sys2Proof.Machine
end

