-- ==== Sys2Proof/Machine/State.lean ====
section
/-!
DEFINITION. The state of the BX6: its blocks (section 0.3), link time, the phase of supply and start-up, and
the queue of the commands that are waiting; the ways a step can stop; and the state after reset.
-/

namespace Sys2Proof.Machine

/-- Supply and start-up: without supply; from a reset to the end of the start-up load, when neither receivers
nor transmitters work (R2); running. -/
inductive Phase where
  | off
  | starting
  | running
deriving DecidableEq, Repr

/-- The whole part. Plain data. -/
structure State where
  /-- commands that are waiting, first in, first out -/
  pending : List Instr
  /-- supply and start-up -/
  phase : Phase
  /-- link time (R1) -/
  time : LinkTime
  /-- link interface (chapter 1) -/
  ports : PerPort PortState
  /-- source monitor: the source table (section 1.5) -/
  sources : List SourceRecord
  control : Control
  capability : Capability
  blender : Blender
  slide : Slide
  builder : Builder
  tables : Tables
  capture : Capture
  store : Store
  orders : Orders
deriving DecidableEq, Repr

/-- The reasons for which the machine stops with a fault: none. Every command of the table has an effect
that the spec gives, or leaves the part as it is. -/
inductive Fault
deriving DecidableEq, Repr

/-- The reasons for which a command has no meaning. -/
inductive Refusal where
  /-- Raised by an arm of `exec` whose command is not modelled yet; no arm raises it. Safe: the machine stops. -/
  | notModelled (mnemonic : String)
deriving DecidableEq, Repr

/-- The whole part at a reset, its non-volatile memories given: the table set that is loaded at start-up with
its stored number, the profile slots and selection, and the record store as the first part of the scan leaves
it. The queue of commands is the outside's. -/
def State.atReset (pending : List Instr) (phase : Phase) (t : TableSet) (number : U16) (slots : UserSlots)
    (selection : Fin 4) (store : Store) (restarts : Nat) : State :=
  { pending := pending, phase := phase, time := 0
    ports := ⟨PortState.reset, PortState.reset⟩
    sources := initialSources t
    control := Control.reset t
    capability := Capability.reset
    blender := Blender.reset t
    slide := Slide.reset t
    builder := Builder.reset
    tables := Tables.reset t number slots selection
    capture := Capture.reset
    store := store
    orders := Orders.reset (initialSources t) restarts }

/-- The machine right after power-on of a part as it leaves the factory: user slots EMPTY, selection 0 (R145),
no page written, restart count 0 (R199). The start-up load is still to come; until it the table set reads as
the factory set, which is the one it will load. -/
def State.reset : State :=
  State.atReset [] .starting factorySet 0 ⟨.empty, .empty, .empty⟩ 0 Store.blank 0

end Sys2Proof.Machine
end

