-- ==== Sys2Proof/Machine/Wire.lean ====
section
/-!
DEFINITION. The byte forms the spec gives: telegrams (section 1.2), the payloads of BRAKE_CMD and PART_STATUS
(R197), samples (section 8.1.1) and pages (section 9.1.1), with the classes of a page (R170).
-/

namespace Sys2Proof.Machine

/-! ### Codes of named values -/

def PartState.code : PartState → Nat
  | .standby => 0
  | .active => 1
  | .fallback => 2
  | .maintenance => 3

def Thermal.code : Thermal → Nat
  | .normal => 0
  | .derate => 1
  | .trip => 2

def SlideState.code : SlideState → Nat
  | .adhered => 0
  | .suspect => 1
  | .sliding => 2
  | .recovering => 3
  | .locked => 4
  | .sensorLost => 5

def TruckAction.code : TruckAction → Nat
  | .normal => 0
  | .hold => 1
  | .vent => 2
  | .ventExpired => 3

def StagingState.code : StagingState → Nat
  | .idle => 0
  | .loading => 1
  | .awaitDecision => 2
  | .pendingSwitch => 3

def RecorderState.code : RecorderState → Nat
  | .disarmed => 0
  | .armed => 1
  | .capturing => 2

def CompEvent.code : CompEvent → Nat
  | .demand => 0
  | .repeatExpiry => 1

/-- The trigger kinds in the order of their items. -/
def TriggerKind.all : List TriggerKind :=
  [.emergencyDemand, .slideEntry, .lockDetected, .ventExpired, .demandLost, .thermalTrip, .airResponse,
    .inverterLoss, .shortfall, .maintMotion, .manual, .tableSwitch]

/-- The item index of a trigger kind (R155). -/
def TriggerKind.code (k : TriggerKind) : Nat := TriggerKind.all.idxOf k

def CloseReason.code : CloseReason → Nat
  | .postDone => 0
  | .lengthCap => 1

/-- The result codes (section 10.3). -/
def Result.code : Result → Nat
  | .done => 0
  | .refusedState => 1
  | .refusedArg => 2
  | .refusedBusy => 3
  | .valueHeld => 4
  | .checkFailed => 5
  | .noDemand => 6
  | .demandNonzero => 7
  | .captureActive => 8
  | .busy => 9
  | .notYet => 10
  | .recordGone => 11
  | .endOfRecord => 12
  | .dataCheck => 13
  | .calTimeout => 14
  | .calAborted => 15
  | .unknownOrder => 16

/-- The order codes (section 10.1). -/
def OrderName.code : OrderName → U8
  | .linkCounts => 0x01
  | .inquireSource => 0x02
  | .engage => 0x10
  | .releaseControl => 0x11
  | .enterMaint => 0x12
  | .leaveMaint => 0x13
  | .setMode => 0x14
  | .setValue => 0x15
  | .inquireChannel => 0x16
  | .inquireCapability => 0x20
  | .inquireBlend => 0x28
  | .clearAttention => 0x30
  | .inquireSlide => 0x31
  | .calibrate => 0x38
  | .inquireCommand => 0x39
  | .load => 0x40
  | .accept => 0x41
  | .reject => 0x42
  | .abandon => 0x43
  | .readTable => 0x44
  | .listProfiles => 0x45
  | .saveProfile => 0x46
  | .loadProfile => 0x47
  | .arm => 0x50
  | .disarm => 0x51
  | .trigger => 0x52
  | .readRing => 0x53
  | .inquireRecorder => 0x54
  | .readRecord => 0x60
  | .readNext => 0x61
  | .listRecords => 0x62
  | .pinRecord => 0x63
  | .unpinRecord => 0x64
  | .clearStore => 0x65
  | .inquireStore => 0x66
  | .inquire => 0x70
  | .clearFaults => 0x71
  | .restart => 0x72

/-- The order a name byte stands for; none for a name not in the table (R188). -/
def OrderName.ofCode (c : U8) : Option OrderName :=
  [OrderName.linkCounts, .inquireSource, .engage, .releaseControl, .enterMaint, .leaveMaint, .setMode,
    .setValue, .inquireChannel, .inquireCapability, .inquireBlend, .clearAttention, .inquireSlide,
    .calibrate, .inquireCommand, .load, .accept, .reject, .abandon, .readTable, .listProfiles,
    .saveProfile, .loadProfile, .arm, .disarm, .trigger, .readRing, .inquireRecorder, .readRecord,
    .readNext, .listRecords, .pinRecord, .unpinRecord, .clearStore, .inquireStore, .inquire,
    .clearFaults, .restart].find? (fun n => n.code == c)

/-- The orders that take the long-order slot (section 10.1). -/
def OrderName.isLong : OrderName → Bool
  | .calibrate => true
  | .saveProfile => true
  | .readRecord => true
  | .readNext => true
  | .listRecords => true
  | .clearStore => true
  | _ => false

/-- How many argument bytes an order needs (R189). LOAD needs the four before its items, whose length its owner judges
(DESIGN CHOICE, log entry 61). -/
def OrderName.argBytes : OrderName → Nat
  | .linkCounts => 1
  | .inquireSource => 1
  | .setMode => 2
  | .setValue => 3
  | .inquireChannel => 1
  | .clearAttention => 1
  | .calibrate => 1
  | .load => 4
  | .readTable => 4
  | .saveProfile => 1
  | .loadProfile => 1
  | .readRing => 3
  | .inquireRecorder => 1
  | .readRecord => 7
  | .listRecords => 1
  | .pinRecord => 4
  | .unpinRecord => 4
  | .clearFaults => 1
  | _ => 0

/-! ### Bit sets -/

/-- Six flags as a number, bit n−1 for axle n. -/
def axleBits (v : PerAxle Bool) : Nat :=
  (Axle.all.filter v.get).foldl (fun n a => n + 2 ^ a.bit) 0

/-- The slide states as in samples: one nibble per axle, axle 1 in the high nibble of the first byte. -/
def slideBytes (v : PerAxle SlideState) : Bytes :=
  [byteOf (16 * v.a1.code + v.a2.code), byteOf (16 * v.a3.code + v.a4.code),
    byteOf (16 * v.a5.code + v.a6.code)]

/-- Six two-byte fields in ascending axle number. -/
def axleFields (v : PerAxle Nat) : Bytes := v.toList.flatMap nat16

/-! ### Telegrams -/

def kindDemand : U8 := 0x10
def kindSpeed : U8 := 0x20
def kindEffort : U8 := 0x21
def kindPressure : U8 := 0x22
def kindBrakeCmd : U8 := 0x30
def kindPartStatus : U8 := 0x31
def kindOrder : U8 := 0x40
def kindReply : U8 := 0x41

/-- The bytes a telegram's check covers: offsets 0 to 4 + Length (R3). -/
def checkedBytes (dest source kind seq : U8) (payload : Bytes) : Bytes :=
  [dest, source, kind, seq, byteOf payload.length] ++ payload

/-- A telegram as a sender forms it: the check over its bytes (R3). -/
def Telegram.form (dest source kind seq : U8) (payload : Bytes) : Telegram :=
  ⟨dest, source, kind, seq, payload, crc16 (checkedBytes dest source kind seq payload)⟩

/-- All bytes of a telegram, most significant byte of the check first (section 1.2). -/
def Telegram.bytes (t : Telegram) : Bytes :=
  checkedBytes t.dest t.source t.kind t.seq t.payload ++ be16 t.check

/-- The payload of a BRAKE_CMD: 21 bytes. -/
def BrakeCmd.payload (c : BrakeCmd) : Bytes :=
  [flagByte c.inControl] ++ axleFields c.efforts ++ nat16 c.pressures.a ++ nat16 c.pressures.b
    ++ [byteOf c.actions.a.code, byteOf c.actions.b.code] ++ be16 c.seq

/-- The payload of a PART_STATUS: 26 bytes (R197). -/
def PartStatus.payload (p : PartStatus) : Bytes :=
  [byteOf (p.partState.code + 4 * p.staging.code + 16 * p.thermal.code + (if p.anyAttention then 64 else 0)),
    byteOf p.summary.toNat]
    ++ nat24 p.flags.toNat ++ [byteOf (axleBits p.attention)] ++ slideBytes p.slide ++ nat16 p.vref
    ++ nat24 p.heat ++ nat16 p.shortfall ++ [byteOf p.recorder.code] ++ nat32 p.newest
    ++ nat16 p.missedDisarmed ++ nat16 p.missedFull ++ [p.slot]

/-! ### Samples (R153, section 8.1.1) -/

/-- One bit of a set, when it is present. -/
def presentBit (n : Nat) (b : Bool) : Nat := if b then 2 ^ n else 0

/-- The validity set (R153): bit 0 demand, 1 to 6 axle speeds, 7 and 8 feedbacks, 9 shortfall. -/
def Sample.validity (s : Sample) : Nat :=
  presentBit 0 s.demand.isSome + presentBit 1 s.speeds.a1.isSome + presentBit 2 s.speeds.a2.isSome
    + presentBit 3 s.speeds.a3.isSome + presentBit 4 s.speeds.a4.isSome + presentBit 5 s.speeds.a5.isSome
    + presentBit 6 s.speeds.a6.isSome + presentBit 7 s.feedback.a.isSome
    + presentBit 8 s.feedback.b.isSome + presentBit 9 s.shortfall.isSome

/-- The EMERGENCY bit of a sample; 0 when the demand is absent. -/
def Sample.emergency (s : Sample) : Bool :=
  match s.demand with
  | some (_, _, e) => e
  | none => false

/-- A sample in its 58-byte form; the bytes of an absent field are 0. -/
def Sample.bytes (s : Sample) : Bytes :=
  be32 s.index ++ be32 s.time
    ++ [byteOf (s.partState.code + 4 * s.event.code + (if s.emergency then 8 else 0) + 16 * s.thermal.code)]
    ++ nat16 s.validity
    ++ nat16 ((s.demand.map (fun d => d.1)).getD 0) ++ nat16 ((s.demand.map (fun d => d.2.1)).getD 0)
    ++ nat16 s.vref ++ s.speeds.toList.flatMap (fun v => nat16 (v.getD 0)) ++ slideBytes s.slide
    ++ axleFields s.efforts ++ nat16 s.pressures.a ++ nat16 s.pressures.b
    ++ nat16 (s.feedback.a.getD 0) ++ nat16 (s.feedback.b.getD 0)
    ++ [byteOf (s.actions.a.code + 4 * s.actions.b.code)] ++ nat24 s.heat ++ nat16 (s.shortfall.getD 0)

/-! ### Pages (section 9.1.1, R170) -/

def OpenData.bytes (d : OpenData) : Bytes :=
  nat32 d.incident ++ [byteOf d.kind.code, byteOf d.cls] ++ be32 d.time ++ be32 d.index
    ++ [byteOf d.pre] ++ be16 d.setNumber ++ be16 d.setCrc ++ [byteOf d.partState.code]

/-- One list entry of a CLOSE page: 10 bytes. -/
def ExtraTrigger.bytes (x : ExtraTrigger) : Bytes :=
  [byteOf x.kind.code, byteOf x.cls] ++ be32 x.time ++ be32 x.index

/-- CLOSE data: 89 bytes, unused list entries zero. -/
def CloseData.bytes (d : CloseData) : Bytes :=
  nat16 d.post ++ nat16 d.lost ++ [byteOf d.cls] ++ nat16 d.extraCount
    ++ [byteOf d.reason.code, byteOf d.extras.length]
    ++ ((d.extras.take 8).flatMap ExtraTrigger.bytes)
    ++ List.replicate (10 * (8 - d.extras.length)) 0

/-- The kind byte of a page: 1 OPEN, 2 SAMPLE, 3 CLOSE. -/
def PageBody.kindByte : PageBody → U8
  | .opening _ => 1
  | .samples _ => 2
  | .closing _ => 3

/-- How many samples a page holds; 0 on OPEN and CLOSE pages. -/
def PageBody.sampleCount : PageBody → Nat
  | .samples l => l.length
  | _ => 0

def PageBody.data : PageBody → Bytes
  | .opening d => d.bytes
  | .samples l => l.flatMap Sample.bytes
  | .closing d => d.bytes

/-- Header bytes 0 to 6. -/
def BuiltPage.head (p : BuiltPage) : Bytes :=
  nat32 p.incident ++ [byteOf p.seq, p.body.kindByte, byteOf p.body.sampleCount]

/-- The next code a page is written with: END on a CLOSE page, none yet on any other (R173). -/
def BuiltPage.firstNext (p : BuiltPage) : U8 :=
  match p.body with
  | .closing _ => 0xFE
  | _ => 0xFF

/-- The 590 bytes of a page as the store writes it; what lies beyond the data stays erased. -/
def BuiltPage.bytes (p : BuiltPage) : Bytes :=
  let b := p.head ++ be16 (crc16 (p.head ++ p.body.data)) ++ [p.firstNext] ++ p.body.data
  b ++ List.replicate (590 - b.length) 0xFF

/-- What an erased page reads: FFh in every byte. -/
def erasedPage : Bytes := List.replicate 590 0xFF

def pageIncident (b : Bytes) : Nat := (u32At b 0).toNat
def pageSeq (b : Bytes) : Nat := (byteAt b 4).toNat
def pageKind (b : Bytes) : Nat := (byteAt b 5).toNat
def pageSamples (b : Bytes) : Nat := (byteAt b 6).toNat
def pageNext (b : Bytes) : U8 := byteAt b 9

/-- The length of the data area by kind and sample count. -/
def pageDataLength (b : Bytes) : Nat :=
  match pageKind b with
  | 1 => 20
  | 2 => 58 * pageSamples b
  | _ => 89

/-- The classes of a page (R170). -/
inductive PageClass where
  | erased
  | void
  | valid
  | bad
deriving DecidableEq, Repr

/-- The page CRC agrees: the CRC-16 over header bytes 0 to 6 and the data area. -/
def pageCrcAgrees (b : Bytes) : Bool :=
  u16At b 7 == crc16 (b.take 7 ++ (b.drop 10).take (pageDataLength b))

/-- The data area lies within the page: a SAMPLE page counts at most 10 samples. -/
def pageDataFits (b : Bytes) : Bool := 10 + pageDataLength b ≤ b.length

/-- The class of a page by what it reads (R170). A page whose data area would not fit it has no page CRC that
agrees (DEDUCED, log entry 24). -/
def pageClass (b : Bytes) : PageClass :=
  if b.all (· == 0xFF) then .erased
  else if (b.take 9).all (· == 0) then .void
  else if 1 ≤ pageIncident b && 1 ≤ pageKind b && pageKind b ≤ 3 && pageDataFits b && pageCrcAgrees b then
    .valid
  else .bad

/-- The next codes (section 9.1.1). -/
inductive NextCode where
  | none
  | finish
  | following
  | bank (n : Nat)
  | broken
deriving DecidableEq, Repr

/-- What a next code says: FFh none yet, FEh END, FDh FOLLOWING, 00h to 0Fh BANK, else a broken link (R170). -/
def NextCode.ofByte (b : U8) : NextCode :=
  if b.toNat = 0xFF then .none
  else if b.toNat = 0xFE then .finish
  else if b.toNat = 0xFD then .following
  else if b.toNat ≤ 0x0F then .bank b.toNat
  else .broken

end Sys2Proof.Machine
end

