-- ==== Sys2Proof/Machine/Flags.lean ====
section
/-!
DEFINITION. The fault register (section 10.4): its 17 flags, their classes, the class summary and the lamps.
-/

namespace Sys2Proof.Machine

/-- The six fault classes. -/
inductive FaultClass where
  | link
  | table
  | adhesion
  | actuator
  | thermal
  | recorder
deriving DecidableEq, Repr

/-- The class's bit in the class summary and in the class set of CLEAR_FAULTS. -/
def FaultClass.bit : FaultClass → Nat
  | .link => 0
  | .table => 1
  | .adhesion => 2
  | .actuator => 3
  | .thermal => 4
  | .recorder => 5

/-- The 17 flags. -/
inductive Flag where
  | demandLost
  | sourceStale
  | portErrors
  | queueDrop
  | checkFailed
  | profileFault
  | lockDetected
  | ventExpired
  | adhesionLow
  | inverterStale
  | inverterFault
  | airResponse
  | thermalDerate
  | thermalTrip
  | storeFull
  | pageDropped
  | bankRetired
deriving DecidableEq, Repr

def Flag.all : List Flag :=
  [.demandLost, .sourceStale, .portErrors, .queueDrop, .checkFailed, .profileFault, .lockDetected,
    .ventExpired, .adhesionLow, .inverterStale, .inverterFault, .airResponse, .thermalDerate, .thermalTrip,
    .storeFull, .pageDropped, .bankRetired]

/-- The bit a flag occupies in PART_STATUS. -/
def Flag.bit : Flag → Nat
  | .demandLost => 0
  | .sourceStale => 1
  | .portErrors => 2
  | .queueDrop => 3
  | .checkFailed => 4
  | .profileFault => 5
  | .lockDetected => 6
  | .ventExpired => 7
  | .adhesionLow => 8
  | .inverterStale => 9
  | .inverterFault => 10
  | .airResponse => 11
  | .thermalDerate => 12
  | .thermalTrip => 13
  | .storeFull => 14
  | .pageDropped => 15
  | .bankRetired => 16

/-- The class a flag belongs to. -/
def Flag.cls : Flag → FaultClass
  | .demandLost => .link
  | .sourceStale => .link
  | .portErrors => .link
  | .queueDrop => .link
  | .checkFailed => .table
  | .profileFault => .table
  | .lockDetected => .adhesion
  | .ventExpired => .adhesion
  | .adhesionLow => .adhesion
  | .inverterStale => .actuator
  | .inverterFault => .actuator
  | .airResponse => .actuator
  | .thermalDerate => .thermal
  | .thermalTrip => .thermal
  | .storeFull => .recorder
  | .pageDropped => .recorder
  | .bankRetired => .recorder

/-- A flag is set in a register. -/
def flagIn (r : BitVec 17) (f : Flag) : Bool := r.getLsbD f.bit

/-- The register with a flag set; a raise that finds its flag set leaves it set (R195). -/
def raiseIn (r : BitVec 17) (f : Flag) : BitVec 17 := r ||| BitVec.twoPow 17 f.bit

/-- The register with a flag cleared. -/
def clearIn (r : BitVec 17) (f : Flag) : BitVec 17 := r &&& ~~~(BitVec.twoPow 17 f.bit)

/-- The flags of the register, of one class. -/
def classMask : FaultClass → BitVec 17
  | .link => 0x0000F
  | .table => 0x00030
  | .adhesion => 0x001C0
  | .actuator => 0x00E00
  | .thermal => 0x03000
  | .recorder => 0x1C000

/-- A class summary bit (R196): set while at least one flag of the class is set. -/
def summaryBit (r : BitVec 17) (c : FaultClass) : Bool := r &&& classMask c != 0

/-- The class summary (R196), one bit for each class. -/
def classSummary (r : BitVec 17) : BitVec 6 :=
  BitVec.ofBool (summaryBit r .recorder) ++ BitVec.ofBool (summaryBit r .thermal)
    ++ BitVec.ofBool (summaryBit r .actuator) ++ BitVec.ofBool (summaryBit r .adhesion)
    ++ BitVec.ofBool (summaryBit r .table) ++ BitVec.ofBool (summaryBit r .link)

/-- A flag of the fault register is set. -/
def State.flag (s : State) (f : Flag) : Bool := flagIn s.orders.faults f

/-- Set a flag of the fault register. -/
def State.setFlag (f : Flag) (s : State) : State :=
  { s with orders := { s.orders with faults := raiseIn s.orders.faults f } }

/-- Set a flag when a condition holds. -/
def State.setFlagIf (c : Bool) (f : Flag) (s : State) : State := if c then s.setFlag f else s

/-- Clear a flag outright (R135). When the class summary changes by it, a change is owed to PART_STATUS, whatever
the rest of the event sets again (R196). -/
def State.dropFlag (f : Flag) (s : State) : State :=
  let r := clearIn s.orders.faults f
  { s with
    orders :=
      { s.orders with
        faults := r
        reported := if classSummary r = classSummary s.orders.faults then s.orders.reported else none } }

/-- A lamp output (R196): true when it conducts to ground and its lamp lights, false when it is high-impedance.
It follows the class summary bit; without supply nothing conducts. -/
def State.lamp (s : State) (c : FaultClass) : Bool :=
  match s.phase with
  | .off => false
  | _ => summaryBit s.orders.faults c

end Sys2Proof.Machine
end

