-- ==== Sys2Proof/Machine/Operands.lean ====
section
/-!
DEFINITION. The operand forms: what a telegram's bytes say (R2 to R4), the payloads of the kinds the part
understands (section 1.2), and the arguments of orders (R189).
-/

namespace Sys2Proof.Machine

/-! ### Received telegrams -/

/-- The telegram in a run of bytes that passes the checks of R4; none is a check error: truncated or shorter
than 7 bytes, a Length above 64, a byte count that is not 7 + Length, a source node of 63, or a check field
that differs from the CRC-16 of the bytes. -/
def parseTelegram (b : Bytes) : Option Telegram :=
  let n := (byteAt b 4).toNat
  if b.length < 7 then none
  else if 64 < n then none
  else if b.length ≠ 7 + n then none
  else if byteAt b 1 = 63 then none
  else if u16At b (5 + n) ≠ crc16 (b.take (5 + n)) then none
  else some ⟨byteAt b 0, byteAt b 1, byteAt b 2, byteAt b 3, (b.drop 5).take n, u16At b (5 + n)⟩

/-- What a receiver hands on, checked (R2, R4). -/
def checkReceived : Received → Option Telegram
  | .whole b => parseTelegram b
  | .truncated _ => none

/-! ### Payloads -/

/-- The kind a role expects (section 1.5). -/
def Role.kind : Role → Option U8
  | .none => Option.none
  | .demand => some kindDemand
  | .speed => some kindSpeed
  | .inverterA => some kindEffort
  | .inverterB => some kindEffort
  | .pressure => some kindPressure
  | .order => some kindOrder

/-- The payload lengths a role admits (section 1.5). -/
def Role.lengthOk (r : Role) (n : Nat) : Bool :=
  match r with
  | .none => false
  | .demand => n == 3
  | .speed => n == 15
  | .inverterA => n == 15
  | .inverterB => n == 15
  | .pressure => n == 5
  | .order => 2 ≤ n && n ≤ 64

/-- A telegram has the kind and the payload length its role asks for (R8). -/
def contentOk (r : Role) (t : Telegram) : Bool := r.kind == some t.kind && r.lengthOk t.payload.length

/-- DEMAND: demand effort and flags byte. -/
structure DemandPayload where
  effort : U16
  flags : U8
deriving DecidableEq, Repr

def DemandPayload.ofBytes (b : Bytes) : DemandPayload := ⟨u16At b 0, byteAt b 2⟩
def DemandPayload.bytes (p : DemandPayload) : Bytes := be16 p.effort ++ [p.flags]

/-- AXLE_SPEED: sample time, six speeds, validity set. -/
structure SpeedPayload where
  time : U16
  speeds : PerAxle U16
  valid : U8
deriving DecidableEq, Repr

def SpeedPayload.ofBytes (b : Bytes) : SpeedPayload :=
  ⟨u16At b 0, ⟨u16At b 2, u16At b 4, u16At b 6, u16At b 8, u16At b 10, u16At b 12⟩, byteAt b 14⟩
def SpeedPayload.bytes (p : SpeedPayload) : Bytes :=
  be16 p.time ++ p.speeds.toList.flatMap be16 ++ [p.valid]

/-- The speed of an axle in a sample: absent when its bit is clear, at most 16,000 sc (R84). -/
def SpeedPayload.speed (p : SpeedPayload) (a : Axle) : Option Nat :=
  if p.valid.getLsbD a.bit then some (min 16000 (p.speeds.get a).toNat) else none

/-- EFFORT_REPORT: three axle entries in ascending order. -/
structure EffortPayload where
  r1 : InverterReport
  r2 : InverterReport
  r3 : InverterReport
deriving DecidableEq, Repr

def reportAt (b : Bytes) (i : Nat) : InverterReport := ⟨u16At b i, u16At b (i + 2), byteAt b (i + 4)⟩
def reportBytes (r : InverterReport) : Bytes := be16 r.achieved ++ be16 r.limit ++ [r.fault]
def EffortPayload.ofBytes (b : Bytes) : EffortPayload := ⟨reportAt b 0, reportAt b 5, reportAt b 10⟩
def EffortPayload.bytes (p : EffortPayload) : Bytes :=
  reportBytes p.r1 ++ reportBytes p.r2 ++ reportBytes p.r3

/-- CYL_PRESSURE: two feedbacks and the valve status. -/
structure PressurePayload where
  fbA : U16
  fbB : U16
  valve : U8
deriving DecidableEq, Repr

def PressurePayload.ofBytes (b : Bytes) : PressurePayload := ⟨u16At b 0, u16At b 2, byteAt b 4⟩
def PressurePayload.bytes (p : PressurePayload) : Bytes := be16 p.fbA ++ be16 p.fbB ++ [p.valve]

/-- A truck's feedback when valid: at most 1000 kPa with its valve-ready bit set (R120). -/
def PressurePayload.feedback (p : PressurePayload) (t : Truck) : Option Nat :=
  match t with
  | .a => if p.valve.getLsbD 0 && p.fbA.toNat ≤ 1000 then some p.fbA.toNat else none
  | .b => if p.valve.getLsbD 1 && p.fbB.toNat ≤ 1000 then some p.fbB.toNat else none

/-! ### Channels and modes as arguments (R39) -/

/-- A channel: an axle channel E1 to E6 or a truck channel TA, TB. -/
inductive Channel where
  | axle (a : Axle)
  | truck (t : Truck)
deriving DecidableEq, Repr

/-- Channel numbers: 1 to 6 for E1 to E6, 7 for TA, 8 for TB. -/
def Channel.ofByte (b : U8) : Option Channel :=
  match b.toNat with
  | 1 => some (.axle .e1)
  | 2 => some (.axle .e2)
  | 3 => some (.axle .e3)
  | 4 => some (.axle .e4)
  | 5 => some (.axle .e5)
  | 6 => some (.axle .e6)
  | 7 => some (.truck .a)
  | 8 => some (.truck .b)
  | _ => none

def Channel.number : Channel → Nat
  | .axle a => a.bit + 1
  | .truck .a => 7
  | .truck .b => 8

/-- The truck whose channel a byte names: 7 or 8 (R124). -/
def truckOfByte (b : U8) : Option Truck :=
  match b.toNat with
  | 7 => some .a
  | 8 => some .b
  | _ => none

/-- Modes by their position in the list of R189. -/
def Mode.ofByte (b : U8) : Option Mode :=
  match b.toNat with
  | 0 => some .off
  | 1 => some .auto
  | 2 => some .manual
  | 3 => some .calibrate
  | _ => none

/-- A profile slot number 0 to 3. -/
def slotOfByte (b : U8) : Option (Fin 4) := if h : b.toNat < 4 then some ⟨b.toNat, h⟩ else none

end Sys2Proof.Machine
end

