-- ==== Sys2Proof/Machine/Ops.lean ====
section
/-!
DEFINITION. Operations every block uses: link time, the classification header, the output queues and
transmitters (R12 to R15), PART_STATUS and its reports (R197), and the handing over of replies (R190, R191).
-/

namespace Sys2Proof.Machine

/-! ### Link time (R1) -/

/-- A deadline formed as a sum modulo 2^32. -/
def State.after (s : State) (ms : Nat) : LinkTime := s.time + BitVec.ofNat 32 ms

/-- A time left until a deadline: the difference modulo 2^32. -/
def State.timeLeft (s : State) (d : LinkTime) : Nat := (d - s.time).toNat

/-- The time elapsed since a link time: the difference modulo 2^32. -/
def State.elapsed (s : State) (t : LinkTime) : Nat := (s.time - t).toNat

/-- A link time lies after another when their difference modulo 2^32 lies from 1 to 2^31 − 1. -/
def isAfter (t u : LinkTime) : Bool := 1 ≤ (t - u).toNat && (t - u).toNat ≤ 2147483647

/-- Link time has reached a deadline when it is equal to it (R1). A deadline that is set at the present link time
is reached at once, in the same millisecond (DESIGN CHOICE, log entry 37). -/
def State.reached (s : State) (d : LinkTime) : Bool := s.time == d

/-! ### The active set -/

def State.tbl (s : State) : TableSet := s.tables.active.tables
def State.node (s : State) : U8 := s.tbl.header.node
def State.statusPeriod (s : State) : Nat := s.tbl.header.statusPeriod.toNat

/-! ### Source records -/

/-- The source record of a role that one entry carries. -/
def State.roleRecord (s : State) (r : Role) : Option SourceRecord := s.sources.find? (fun x => x.role == r)

/-- The freshness of a role's record; NEVER when it has none. -/
def State.roleFreshness (s : State) (r : Role) : Freshness :=
  match s.roleRecord r with
  | some x => x.freshness
  | none => .never

/-- A role is fresh when its record is FRESH (section 1.5). -/
def State.roleFresh (s : State) (r : Role) : Bool := s.roleFreshness r == .fresh

/-! ### Output queues -/

/-- The own telegram at hand replaces one waiting of the same kind: BRAKE_CMD and PART_STATUS do, a REPLY
does not (R14). -/
def OwnTelegram.supersedes : OwnTelegram → OwnTelegram → Bool
  | .brakeCmd _, .brakeCmd _ => true
  | .partStatus _, .partStatus _ => true
  | _, _ => false

/-- Replace the first waiting telegram that the new one supersedes, in its place. -/
def replaceWaiting (t : OwnTelegram) : List OwnTelegram → List OwnTelegram
  | [] => []
  | x :: xs => if t.supersedes x then t :: xs else x :: replaceWaiting t xs

/-- Telegrams waiting in a queue; the one on the line is not counted (R12). -/
def PortState.waiting (q : PortState) : Nat := q.own.length + q.fwd.length

/-- One more forwarded telegram lost (R15). -/
def PortState.countDrop (q : PortState) : PortState :=
  { q with counts := { q.counts with queueDrops := satAdd 65535 q.counts.queueDrops 1 } }

/-- An own telegram enters the queue (R14, R15): it replaces the one it supersedes, or takes the last place of
its class, removing the newest forwarded telegram from a full queue. -/
def PortState.enterOwn (q : PortState) (t : OwnTelegram) : PortState :=
  if q.own.any t.supersedes then { q with own := replaceWaiting t q.own }
  else if q.waiting < Config.queueSize || q.fwd.isEmpty then { q with own := q.own ++ [t] }
  else { q.countDrop with own := q.own ++ [t], fwd := q.fwd.dropLast }

/-- A forwarded telegram enters the queue, or is dropped when it is full (R15). -/
def PortState.enterForwarded (q : PortState) (t : Telegram) : PortState :=
  if q.waiting < Config.queueSize then { q with fwd := q.fwd ++ [t] } else q.countDrop

/-- The telegram's entry loses a forwarded telegram. -/
def PortState.ownDrops (q : PortState) (t : OwnTelegram) : Bool :=
  !(q.own.any t.supersedes) && !(q.waiting < Config.queueSize) && !q.fwd.isEmpty
def PortState.forwardDrops (q : PortState) : Bool := !(q.waiting < Config.queueSize)

def State.port (s : State) (p : Port) : PortState := s.ports.get p
def State.withPort (s : State) (p : Port) (q : PortState) : State := { s with ports := s.ports.set p q }

/-! ### Replies and reply positions -/

/-- Replies of so few fields that their data fit the 61 bytes of one telegram whatever widths of up to four
bytes the fields have; READ_TABLE's, with the 48 bytes of three TRUCK items at most, when the identity takes at most 13
(DEDUCED, log entry 4). -/
def ReplyData.fitsOne : ReplyData → Bool
  | .capability _ => false
  | .blend _ _ => false
  | .slide _ => false
  | .command _ => false
  | .ringSample _ _ _ => false
  | .recorder _ => false
  | .item _ _ _ => false
  | .items _ b => b.length ≤ 48
  | .records _ e => e.isEmpty
  | .storeInfo _ => false
  | .partInfo _ => false
  | _ => true

/-- What a reply's data carry in a form that the spec gives, last in the order of their rules: a sample in its 58-byte
form (R167), the item of a readout (R182), the items of READ_TABLE in their LOAD form (R144), the code of an unknown
order (R188). -/
def ReplyData.given (d : ReplyData) : Bytes :=
  match d with
  | .orderCode c => [c]
  | .ringSample _ _ x => x.bytes
  | .item _ _ b => b
  | .items _ b => b
  | _ => []

/-- The most bytes of data that a reply can have: 61 when one telegram holds it, else those of the 128 telegrams that
seven bits number (R191). -/
def ReplyData.room (d : ReplyData) : Nat := if d.fitsOne then 61 else 7808

/-- How many bytes of a reply's data are without a stated form: none of a reply without data or with an order's code;
12 beside an item, as the worked sequence of section 10.2.1 has it (101 bytes with the 89 of CLOSE data; DEDUCED for the
other items); otherwise the free value within the room (log entry 4). -/
def ReplyData.openLength (d : ReplyData) : Nat :=
  match d with
  | .empty => 0
  | .orderCode _ => 0
  | .item _ _ _ => 12
  | _ => min (Config.replyLength d) (d.room - d.given.length)

/-- The bytes of a reply's data: the free value, before what the spec gives a form (log entry 4). -/
def ReplyData.bytes (d : ReplyData) : Bytes := (List.range d.openLength).map (Config.replyByte d) ++ d.given

/-- The number of REPLY telegrams a reply takes, 61 bytes of data each (R191). -/
def ReplyData.fragments (d : ReplyData) : Nat :=
  if d.fitsOne then 1 else max 1 ((d.openLength + d.given.length + 60) / 61)

/-- The fragment is the reply's last: bit 7 of its fragment byte is set (R191). -/
def ReplyFragment.isLast (f : ReplyFragment) : Bool := f.reply.data.fragments ≤ f.number + 1

/-- The fragment byte (R191): the fragment number in bits 0 to 6, bit 7 on the last fragment. -/
def ReplyFragment.fragmentByte (f : ReplyFragment) : U8 :=
  byteOf (f.number % 128 + (if f.isLast then 128 else 0))

/-- The payload of a REPLY telegram (R191): the order tag, the result, the fragment byte, and the fragment's 61 bytes
of data or what remains of them. -/
def ReplyFragment.payload (f : ReplyFragment) : Bytes :=
  [f.reply.tag, byteOf f.reply.result.code, f.fragmentByte] ++ (f.reply.data.bytes.drop (61 * f.number)).take 61

def State.position (s : State) (pid : Nat) : Option Position := s.orders.positions.find? (fun p => p.pid == pid)

/-- Change the reply position with a number. -/
def updatePosition (pid : Nat) (f : Position → Position) (l : List Position) : List Position :=
  l.map (fun p => if p.pid == pid then f p else p)

def State.mapPosition (s : State) (pid : Nat) (f : Position → Position) : State :=
  { s with orders := { s.orders with positions := updatePosition pid f s.orders.positions } }

/-- The node a reply goes to: the source of the answered ORDER (R3). -/
def State.replyNode (s : State) (pid : Nat) : U8 :=
  match s.position pid with
  | some p => p.key.source
  | none => 63

/-! ### Own telegrams on the line (R3) -/

/-- The kind of an own telegram. -/
def OwnTelegram.kind : OwnTelegram → U8
  | .brakeCmd _ => kindBrakeCmd
  | .partStatus _ => kindPartStatus
  | .reply _ => kindReply

/-- The payload of an own telegram. -/
def OwnTelegram.payload : OwnTelegram → Bytes
  | .brakeCmd c => c.payload
  | .partStatus p => p.payload
  | .reply f => f.payload

/-- The telegram that a transmission sends: an own one with its header, length and check (R3), a forwarded one
exactly as received. -/
def Transmission.telegram : Transmission → Telegram
  | .own dest source seq t => Telegram.form dest source t.kind seq t.payload
  | .forwarded t => t

/-- The bytes on the line of a port while its transmitter is busy (section 1.2). -/
def PortState.lineBytes (q : PortState) : Option Bytes := q.tx.map (fun x => x.telegram.bytes)

/-! ### Transmitters (R13) -/

/-- The header of an own telegram as its transmission begins (R3): the destination is 63 for BRAKE_CMD and
PART_STATUS, and the source is the part's own node number. -/
def State.beginOwn (s : State) (q : PortState) (t : OwnTelegram) : Transmission :=
  match t with
  | .brakeCmd _ => .own 63 s.node q.cmdSeq t
  | .partStatus _ => .own 63 s.node q.cmdSeq t
  | .reply f => .own (s.replyNode f.pid) s.node q.replySeq t

/-- The own-sequence counter of the telegram's kind advances by one, modulo 256 (R3). -/
def PortState.advance (q : PortState) (t : OwnTelegram) : PortState :=
  match t with
  | .brakeCmd _ => { q with cmdSeq := q.cmdSeq + 1 }
  | .partStatus _ => { q with cmdSeq := q.cmdSeq + 1 }
  | .reply _ => { q with replySeq := q.replySeq + 1 }

/-- The fragment that is placed in the queue when one before it begins transmission (R191). -/
def OwnTelegram.nextFragment : OwnTelegram → List OwnTelegram
  | .reply f => if f.isLast then [] else [.reply { f with number := f.number + 1 }]
  | _ => []

/-- The reply position that becomes CLEAR when a telegram begins transmission: its reply's last fragment
(R190). -/
def OwnTelegram.clears (positions : List Position) : OwnTelegram → List Position
  | .reply f =>
    updatePosition f.pid (fun p => { p with queued := if f.isLast then false else p.queued }) positions
  | _ => positions

/-- A transmitter, when idle, starts on the oldest waiting own telegram, else on the oldest waiting forwarded
one (R13). Before the start-up load neither transmitter sends (R2). -/
def State.startTx (p : Port) (s : State) : State :=
  let q := s.port p
  match s.phase, q.tx with
  | .running, none =>
    match q.own, q.fwd with
    | t :: rest, _ =>
      { s with
        ports := s.ports.set p
          { q.advance t with own := rest ++ t.nextFragment, tx := some (s.beginOwn q t) }
        orders := { s.orders with positions := t.clears s.orders.positions } }
    | [], f :: rest => s.withPort p { q with fwd := rest, tx := some (.forwarded f) }
    | [], [] => s
  | _, _ => s

/-- An own telegram enters the output queue of a port, whose transmitter starts if it is idle. -/
def State.enqueueOwn (p : Port) (t : OwnTelegram) (s : State) : State :=
  let q := s.port p
  State.startTx p (((s.withPort p (q.enterOwn t))).setFlagIf (q.ownDrops t) .queueDrop)

/-- A forwarded telegram enters the output queue of a port, whose transmitter starts if it is idle. -/
def State.forward (p : Port) (t : Telegram) (s : State) : State :=
  let q := s.port p
  State.startTx p (((s.withPort p (q.enterForwarded t))).setFlagIf q.forwardDrops .queueDrop)

/-! ### PART_STATUS (R197) -/

/-- Any-attention: at least one bit of the attention mask is set (R104). -/
def anyAttention (m : PerAxle Bool) : Bool := m.a1 || m.a2 || m.a3 || m.a4 || m.a5 || m.a6

/-- The staging state of a part. -/
def Staging.state : Staging → StagingState
  | .idle => .idle
  | .loading _ => .loading
  | .awaitDecision _ _ _ => .awaitDecision
  | .pendingSwitch _ _ => .pendingSwitch

/-- The newest incident number: at the head of the directory (R178). -/
def Store.newest (t : Store) : Option Nat := t.directory.head?.map (fun e => e.incident)

/-- The contents of a PART_STATUS, read from their owners. -/
def State.status (s : State) : PartStatus :=
  { partState := s.control.partState
    staging := s.tables.staging.state
    thermal := s.capability.thermal
    anyAttention := anyAttention s.slide.attention
    summary := classSummary s.orders.faults
    flags := s.orders.faults
    attention := s.slide.attention
    slide := PerAxle.ofFn (fun a => (s.slide.axles.get a).state)
    vref := s.slide.vref
    heat := s.capability.heat
    shortfall := (s.blender.record.map (fun r => r.shortfall)).getD 0
    recorder := s.capture.recorder
    newest := s.store.newest.getD 0
    missedDisarmed := s.capture.missedDisarmed
    missedFull := s.capture.missedFull
    slot := (s.orders.slot.map (fun l => l.name.code)).getD 0 }

/-- A PART_STATUS is emitted on the cab port, and the next deadline set one status period on. Its contents are read before
its entry into the queue can set QUEUE_DROP (DESIGN CHOICE, log entry 62). -/
def State.emitStatus (s : State) : State :=
  let s1 := s.enqueueOwn .cab (.partStatus s.status)
  { s1 with orders := { s1.orders with statusDeadline := some (s1.after s1.statusPeriod) } }

/-- What PART_STATUS reports a change of. -/
def State.statusKey (s : State) : StatusKey :=
  { partState := s.control.partState, summary := classSummary s.orders.faults
    anyAttention := anyAttention s.slide.attention }

/-- Note what the change report carries. -/
def State.noteReport (s : State) : State :=
  { s with orders := { s.orders with reported := some s.statusKey } }

/-- The reports of a change of part state, class summary or any-attention reach the order handler, which emits
a PART_STATUS for them (R197): once for an event, at its end or before the reply of a short order (DESIGN CHOICE, log
entry 7). An emission that itself drops a forwarded telegram may change the class summary (QUEUE_DROP), which is
reported in turn. -/
def State.report (s : State) : State :=
  if s.phase ≠ .running || s.orders.reported = some s.statusKey then s
  else
    let s1 := s.noteReport.emitStatus
    if s1.orders.reported = some s1.statusKey then s1 else s1.noteReport.emitStatus

/-! ### Replies handed over (R190) -/

/-- A reply is handed over to a reply position: placed in the output queue of its port when the position is
CLEAR, deferred otherwise. -/
def State.handOver (pid : Nat) (r : Reply) (s : State) : State :=
  match s.position pid with
  | none => s
  | some p =>
    if p.queued then s.mapPosition pid (fun p => { p with deferred := some r })
    else (s.mapPosition pid (fun p => { p with queued := true })).enqueueOwn p.key.port (.reply ⟨pid, r, 0⟩)

/-- The long order in the slot is answered, and the slot is freed when its reply is handed over (R190, R192). -/
def State.answerLong (res : Result) (d : ReplyData) (s : State) : State :=
  match s.orders.slot with
  | none => s
  | some l =>
    { s with orders := { s.orders with slot := none } }.handOver l.pid ⟨l.tag, l.name.code, res, d⟩

end Sys2Proof.Machine
end

