-- ==== Sys2Proof/Machine/RecordStore.lean ====
section
/-!
DEFINITION. The record store's memory and tables (chapter 9): pages in canonical form, the bank table,
protection and reclaim, the directory, the commit of a page, the two parts of the start-up scan, and readout.
These are functions of the store alone; Machine/StoreOps.lean makes steps of them.
-/

namespace Sys2Proof.Machine

/-! ### Pages: the non-volatile memory -/

/-- The key of a page in the memory's list. -/
def PageAddr.key (a : PageAddr) : Nat := 64 * a.bank + a.page

/-- A page reads FFh in every byte. -/
def isErased (b : Bytes) : Bool := b.all (· == 0xFF)

/-- What a page reads; an unlisted page is erased. -/
def lookupPage : List (Nat × Bytes) → Nat → Bytes
  | [], _ => erasedPage
  | (k, b) :: rest, n => if k = n then b else lookupPage rest n

/-- The memory with one page reading as given, in canonical form. -/
def writePage (n : Nat) (b : Bytes) : List (Nat × Bytes) → List (Nat × Bytes)
  | [] => if isErased b then [] else [(n, b)]
  | (k, c) :: rest =>
    if n < k then (if isErased b then (k, c) :: rest else (n, b) :: (k, c) :: rest)
    else if n = k then (if isErased b then rest else (n, b) :: rest)
    else (k, c) :: writePage n b rest

/-- The canonical form: keys strictly rising, no listed page erased. -/
def pagesWf : List (Nat × Bytes) → Bool
  | [] => true
  | (k, b) :: rest => !isErased b && rest.all (fun x => k < x.1) && pagesWf rest

/-- What a page of the store reads. -/
def Store.read (t : Store) (a : PageAddr) : Bytes := lookupPage t.pages a.key

/-- The store with one page reading as given. -/
def Store.write (t : Store) (a : PageAddr) (b : Bytes) : Store := { t with pages := writePage a.key b t.pages }

/-- All pages of a bank erased. -/
def erasePages (bank : Nat) (l : List (Nat × Bytes)) : List (Nat × Bytes) :=
  l.filter (fun x => x.1 / 64 != bank)

/-- A bank after an erase that left some pages reading other than erased. -/
def erasePagesLeaving (bank : Nat) (left : List (Nat × Bytes)) (l : List (Nat × Bytes)) : List (Nat × Bytes) :=
  left.foldl (fun m x => if x.1 < 64 then writePage (64 * bank + x.1) x.2 m else m) (erasePages bank l)

/-- The pages of a bank that do not read erased, ascending. -/
def writtenPages (l : List (Nat × Bytes)) (bank : Nat) : List Nat :=
  (List.range 64).filter (fun p => !isErased (lookupPage l (64 * bank + p)))

/-- An erased page of a bank stands below one that is not erased: the mark of an erase that was cut (R179). -/
def partlyErased (l : List (Nat × Bytes)) (bank : Nat) : Bool :=
  writtenPages l bank != List.range (writtenPages l bank).length

/-- The next code of a page programmed (R173): one byte of its header. -/
def Store.programNext (t : Store) (a : PageAddr) (code : U8) : Store := t.write a ((t.read a).set 9 code)

/-! ### The bank table (R171) -/

def Store.bank (t : Store) (i : Nat) : BankEntry := t.banks.getD i BankEntry.erased
def Store.setBank (t : Store) (i : Nat) (e : BankEntry) : Store := { t with banks := t.banks.set i e }
def Store.bankIs (t : Store) (st : BankState) (i : Nat) : Bool := (t.bank i).state == st

/-- The bank that is WRITING; at most one is. -/
def Store.writing (t : Store) : Option Nat := (List.range 16).find? (t.bankIs .writing)

/-- How many banks are ERASED or ERASING. -/
def Store.roomBanks (t : Store) : Nat :=
  ((List.range 16).filter (fun i => t.bankIs .erased i || t.bankIs .erasing i)).length

/-- The next ERASED bank in ascending cyclic order from the bank that was last WRITING. -/
def Store.nextErased (t : Store) : Option Nat :=
  ((List.range 16).map (fun i => (t.lastWriting + 1 + i) % 16)).find? (t.bankIs .erased)

/-- The highest fill sequence in the table. -/
def Store.highestFill (t : Store) : Nat := (t.banks.map (fun e => e.fillSeq)).foldl max 0

/-- The fill sequence that the next WRITING bank takes: one above the highest (R171), and the free value once that would
leave the range (DESIGN CHOICE, log entry 55). -/
def Store.nextFill (t : Store) : Nat :=
  if t.highestFill < 4294967295 then t.highestFill + 1
  else (Config.fillAfterLast (t.banks.map (fun e => e.fillSeq))).toNat

/-- A bank becomes WRITING: write pointer 0, mismatch run 0, and the next fill sequence (R171). -/
def Store.makeWriting (t : Store) (i : Nat) : Store :=
  { t.setBank i ⟨.writing, t.nextFill, 0, 0⟩ with lastWriting := i }

/-- A bank becomes RETIRED with its mark (R171). -/
def Store.retire (t : Store) (i : Nat) : Store :=
  { t.setBank i { t.bank i with state := .retired, pointer := 0 } with
    retireMarks := if t.retireMarks.contains i then t.retireMarks else t.retireMarks ++ [i] }

/-- Writable pages (R177): the free pages of the WRITING bank and 64 for each bank ERASED or ERASING; 0 once
the last incident number has been given. -/
def Store.writable (t : Store) : Nat :=
  if 4294967295 < t.nextIncident then 0
  else
    (match t.writing with
      | some i => 64 - (t.bank i).pointer
      | none => 0) + 64 * t.roomBanks

/-! ### Directory and protection (R175, R178) -/

def Store.entry (t : Store) (incident : Nat) : Option DirEntry :=
  t.directory.find? (fun e => e.incident == incident)

/-- Change the directory entry of an incident. -/
def Store.mapEntry (t : Store) (incident : Nat) (f : DirEntry → DirEntry) : Store :=
  { t with directory := t.directory.map (fun e => if e.incident == incident then f e else e) }

/-- A page of the record waits in the commit queue. -/
def Store.pageQueued (t : Store) (incident : Nat) : Bool := t.queue.any (fun q => q.page.incident == incident)

/-- The record's CLOSE page waits in the commit queue. -/
def Store.closeQueued (t : Store) (incident : Nat) : Bool :=
  t.queue.any (fun q => q.page.incident == incident && q.page.body.kindByte == 3)

/-- The entry is among the k newest that are CLOSED or UNCLOSED. -/
def Store.retained (t : Store) (k : Nat) (incident : Nat) : Bool :=
  ((t.directory.filter (fun e => e.state != .capturing)).take k).any (fun e => e.incident == incident)

/-- A record is protected (R175): by capture, completion, retention or a pin. -/
def Store.isProtected (t : Store) (k : Nat) (e : DirEntry) : Bool :=
  e.state == .capturing || t.pageQueued e.incident || t.retained k e.incident || t.pins.contains e.incident

/-- A bank holds a page of a protected record: a committed one, or the one whose commit is in progress there. -/
def Store.bankProtected (t : Store) (k : Nat) (i : Nat) : Bool :=
  t.directory.any (fun e => t.isProtected k e && e.banks.contains i)
    || (match t.op with
        | .commit a => a.bank == i
        | _ => false)

/-- Remove directory entries, their pins, and the readout cursor if it stands on one. -/
def Store.removeEntries (t : Store) (gone : DirEntry → Bool) : Store :=
  let out := (t.directory.filter gone).map (fun e => e.incident)
  { t with
    directory := t.directory.filter (fun e => !gone e)
    pins := t.pins.filter (fun p => !out.contains p)
    cursor := t.cursor.filter (fun c => !out.contains c.incident) }

/-- A bank becomes ERASING, its erase waiting behind those chosen before it. -/
def Store.queueErase (t : Store) (i : Nat) : Store :=
  { t.setBank i { t.bank i with state := .erasing, pointer := 0 } with erases := t.erases ++ [i] }

/-- The FILLED banks that reclaim may choose. -/
def Store.reclaimable (t : Store) (k : Nat) : List Nat :=
  (List.range 16).filter (fun i => t.bankIs .filled i && !t.bankProtected k i)

/-- Of some banks the one with the lowest fill sequence (R176), the lower-numbered of equals (DESIGN CHOICE, log
entry 48). -/
def Store.oldestBank (t : Store) : List Nat → Option Nat
  | [] => none
  | i :: is =>
    match t.oldestBank is with
    | none => some i
    | some j => if (t.bank j).fillSeq < (t.bank i).fillSeq then some j else some i

/-- Reclaim (R176): while fewer than 2 banks are ERASED or ERASING, the oldest FILLED bank without a protected
page loses its records and becomes ERASING. Not judged while the scan runs (R180). -/
def Store.reclaim (k : Nat) : Nat → Store → Store
  | 0, t => t
  | n + 1, t =>
    if t.scan = .scanning then t
    else if 2 ≤ t.roomBanks then t
    else
      match t.oldestBank (t.reclaimable k) with
      | none => t
      | some i => Store.reclaim k n ((t.removeEntries (fun e => e.banks.contains i)).queueErase i)

/-- Reclaim judged to its end: it chooses at most two banks. -/
def Store.judgeReclaim (t : Store) (k : Nat) : Store := Store.reclaim k 16 t

/-! ### Captures (R178) -/

/-- The lost count of an entry: while CAPTURING the dropped-sample count; once CLOSED the CLOSE page's count plus
the dropped-sample count; absent in UNCLOSED. -/
def DirEntry.lost (e : DirEntry) : Option Nat :=
  match e.state, e.close with
  | .capturing, _ => some e.dropped
  | .closed, some c => some (c.closeLost + e.dropped)
  | _, _ => none

/-- An entry becomes CLOSED with the fields of a CLOSE page. -/
def DirEntry.closeWith (e : DirEntry) (d : CloseData) : DirEntry :=
  { e with state := .closed, close := some ⟨d.post, d.lost, d.extraCount, d.reason⟩ }

/-- The CLOSE data of a record that waits in the commit queue. -/
def Store.queuedClose (t : Store) (incident : Nat) : Option CloseData :=
  t.queue.findSome? (fun q =>
    if q.page.incident == incident then
      (match q.page.body with
        | .closing d => some d
        | _ => none)
    else none)

/-- An entry that is still CAPTURING when the next capture starts becomes CLOSED at once from its waiting
CLOSE page. -/
def Store.closeEnded (t : Store) : Store :=
  { t with
    directory := t.directory.map (fun e =>
      if e.state == .capturing then
        (match t.queuedClose e.incident with
          | some d => e.closeWith d
          | none => e)
      else e) }

/-- The oldest entry that is not protected. -/
def Store.oldestUnprotected (t : Store) (k : Nat) : Option DirEntry :=
  t.directory.reverse.find? (fun e => !t.isProtected k e)

/-- Room for one more entry: with 48 held, the oldest unprotected one is removed. -/
def Store.makeRoom (t : Store) (k : Nat) : Store :=
  if t.directory.length < Config.directorySize then t
  else
    match t.oldestUnprotected k with
    | none => t
    | some o => t.removeEntries (fun e => e.incident == o.incident)

/-- A capture starts: an entry in CAPTURING with the next incident number at the head of the directory (R178). After
4,294,967,295 the next incident number is held as 2^32, which is never given (DESIGN CHOICE, log entry 50). -/
def Store.createEntry (t : Store) (k : Nat) (kind : TriggerKind) (cls : Nat) (time : LinkTime) (index : U32)
    (pre : Nat) : Store :=
  let t1 := (t.makeRoom k).closeEnded
  { t1 with
    directory :=
      { incident := t.nextIncident, state := .capturing, kind := kind, cls := cls, time := time, index := index,
        firstPage := none, pageCount := 0, banks := [], pre := pre, close := none, dropped := 0, committed := 0,
        lastPage := none, openDropped := false } :: t1.directory
    nextIncident := t.nextIncident + 1 }

/-! ### Commits (R173, R174) -/

/-- What a record's entry keeps of a dropped page: its samples lost, a dropped OPEN page noted, a dropped CLOSE
page leaving it UNCLOSED. -/
def DirEntry.dropPage (e : DirEntry) (p : BuiltPage) : DirEntry :=
  let e1 := { e with dropped := e.dropped + p.body.sampleCount }
  match p.body with
  | .opening _ => { e1 with openDropped := true }
  | .samples _ => e1
  | .closing _ => { e1 with state := .unclosed, close := none }

/-- The page at the head of the commit queue is dropped. -/
def Store.dropHead (t : Store) : Store :=
  match t.queue with
  | [] => t
  | q :: rest => { t.mapEntry q.page.incident (fun e => e.dropPage q.page) with queue := rest }

/-- What a record's entry takes from a committed page. -/
def DirEntry.commitPage (e : DirEntry) (p : BuiltPage) (a : PageAddr) : DirEntry :=
  let e1 :=
    { e with
      pageCount := e.pageCount + 1
      firstPage := e.firstPage.orElse (fun _ => some a)
      banks := if e.banks.contains a.bank then e.banks else e.banks ++ [a.bank]
      committed := e.committed + p.body.sampleCount
      lastPage := some a }
  match p.body with
  | .closing d => e1.closeWith d
  | _ => e1

/-- The next code that links a page at `a` from the page at `prev`: FOLLOWING in the same bank, BANK n
otherwise. -/
def linkCode (prev a : PageAddr) : U8 := if prev.bank = a.bank then 0xFD else byteOf a.bank

/-- What a programmed next code reads: as written, or, when it is given to read otherwise, the broken link it is
left as (R173). A byte that is no broken link stands for a field that reads as written. -/
def codeRead (written : U8) : Option U8 → U8
  | none => written
  | some n => if NextCode.ofByte n = .broken then n else written

/-- The record's last committed page is linked to the new page. `read` is what the field then reads, when it
does not read as written. -/
def Store.linkPrevious (t : Store) (p : BuiltPage) (a : PageAddr) (read : Option U8) : Store :=
  match p.body, (t.entry p.incident).bind (fun e => e.lastPage) with
  | .opening _, _ => t
  | _, none => t
  | _, some prev => t.programNext prev (codeRead (linkCode prev a) read)

/-- The write pointer passes a page; at 64 the bank becomes FILLED and no bank is WRITING (R171). -/
def Store.passPage (t : Store) (i : Nat) (run : Nat) : Store :=
  let e := t.bank i
  if 64 ≤ e.pointer + 1 then t.setBank i { e with state := .filled, pointer := 0, mismatch := run }
  else t.setBank i { e with pointer := e.pointer + 1, mismatch := run }

/-- A commit attempt that agrees (R173). -/
def Store.commitAgrees (t : Store) (q : QueuedPage) (rest : List QueuedPage) (a : PageAddr) (read : Option U8) :
    Store :=
  let t1 := (t.linkPrevious q.page a read).write a q.page.bytes
  let t2 := (t1.passPage a.bank 0).mapEntry q.page.incident (fun e => e.commitPage q.page a)
  { t2 with queue := rest, op := .idle }

/-- The void header reads back as zeros. -/
def isVoided (b : Bytes) : Bool := (b.take 9).all (· == 0)

/-- The bank is retired by a mismatch (R174): its run reaches 2, or the void header does not read back. -/
def Store.mismatchRetires (t : Store) (a : PageAddr) (left : Bytes) : Bool :=
  2 ≤ (t.bank a.bank).mismatch + 1 || !isVoided left

/-- A commit attempt that mismatched (R174): the failed copy reads as given, the pointer passes it, the run
grows, and the bank may be retired; the page's third mismatch drops it. -/
def Store.commitMismatch (t : Store) (q : QueuedPage) (rest : List QueuedPage) (a : PageAddr) (left : Bytes) :
    Store :=
  let run := (t.bank a.bank).mismatch + 1
  let t1 := (t.write a left).passPage a.bank run
  let t2 := if t.mismatchRetires a left then t1.retire a.bank else t1
  let t3 := { t2 with op := .idle, queue := { q with attempts := q.attempts + 1 } :: rest }
  if 3 ≤ q.attempts + 1 then t3.dropHead else t3

/-! ### The start-up scan -/

/-- The valid pages of a bank. -/
def validPages (l : List (Nat × Bytes)) (bank : Nat) : List Nat :=
  (writtenPages l bank).filter (fun p => pageClass (lookupPage l (64 * bank + p)) == .valid)

/-- The incident numbers of a bank's valid pages, in page order. -/
def bankIncidents (l : List (Nat × Bytes)) (bank : Nat) : List Nat :=
  (validPages l bank).map (fun p => pageIncident (lookupPage l (64 * bank + p)))

/-- A bank's highest incident number: that of the last page, read back from the end, that is valid (R179). -/
def bankHighest (l : List (Nat × Bytes)) (bank : Nat) : Option Nat := (bankIncidents l bank).getLast?

/-- The lowest incident number among a bank's valid pages. -/
def bankLowest (l : List (Nat × Bytes)) (bank : Nat) : Option Nat := (bankIncidents l bank).min?

/-- What the first part of the scan finds of a bank: a retirement mark, every page erased, an erased page below
one that is not, all 64 pages not erased, or a candidate for WRITING with its first erased page. -/
inductive ScanFind where
  | retired
  | erased
  | partly
  | full
  | candidate (w : Nat)
deriving DecidableEq, Repr

def scanFind (l : List (Nat × Bytes)) (marks : List Nat) (bank : Nat) : ScanFind :=
  let w := writtenPages l bank
  if marks.contains bank then .retired
  else if w.isEmpty then .erased
  else if partlyErased l bank then .partly
  else if w.length == 64 then .full
  else .candidate w.length

/-- The candidate whose highest incident number is greatest, with that number (R179); the lower-numbered of equals
(DESIGN CHOICE, log entry 49). -/
def bestCandidate (l : List (Nat × Bytes)) (marks : List Nat) : List Nat → Option (Nat × Nat)
  | [] => none
  | i :: is =>
    match scanFind l marks i, bankHighest l i with
    | .candidate _, some h =>
      (match bestCandidate l marks is with
        | some (j, g) => if h < g then some (j, g) else some (i, h)
        | none => some (i, h))
    | _, _ => bestCandidate l marks is

/-- A bank's fill sequence: its place, from 1, among the banks that are not ERASED and hold a valid page, in
ascending order of their lowest incident number with ties by bank number; 0 for the others. -/
def scanFill (l : List (Nat × Bytes)) (bank : Nat) : Nat :=
  match bankLowest l bank with
  | none => 0
  | some x =>
    1 + ((List.range 16).filter (fun j =>
      match bankLowest l j with
      | none => false
      | some y => y < x || (y == x && j < bank))).length

/-- The bank's entry after the first part of the scan (R179). -/
def scanBank (l : List (Nat × Bytes)) (marks : List Nat) (best : Option (Nat × Nat)) (i : Nat) : BankEntry :=
  let fill := scanFill l i
  match scanFind l marks i with
  | .retired => ⟨.retired, fill, 0, 0⟩
  | .erased => ⟨.erased, 0, 0, 0⟩
  | .partly => ⟨.erasing, fill, 0, 0⟩
  | .full => ⟨.filled, fill, 0, 0⟩
  | .candidate w =>
    if best.map Prod.fst = some i then ⟨.writing, fill, 0, w⟩ else ⟨.filled, fill, 0, 0⟩

/-- The greatest incident number of any bank's highest. -/
def greatestIncident (l : List (Nat × Bytes)) : Nat :=
  ((List.range 16).filterMap (bankHighest l)).foldl max 0

/-- The store after the first part of the scan (R179, R187). The erases of several partly erased banks wait in ascending
bank number (DESIGN CHOICE, log entry 57). -/
def Store.scanFirst (pages : List (Nat × Bytes)) (marks : List Nat) : Store :=
  let best := bestCandidate pages marks (List.range 16)
  let banks := (List.range 16).map (scanBank pages marks best)
  { Store.blank with
    pages := pages
    retireMarks := marks
    banks := banks
    nextIncident := greatestIncident pages + 1
    erases := (List.range 16).filter (fun i => (banks.getD i BankEntry.erased).state == .erasing)
    lastWriting := (best.map Prod.fst).getD 15 }

/-- The pages the second part of the scan finds valid: those of every bank that is not ERASED or ERASING. -/
def Store.scannedPages (t : Store) : List PageAddr :=
  ((List.range 16).filter (fun i => !t.bankIs .erased i && !t.bankIs .erasing i)).flatMap
    (fun i => (validPages t.pages i).map (fun p => ⟨i, p⟩))

/-- The trigger kind an item code stands for. -/
def TriggerKind.ofCode (c : Nat) : TriggerKind := TriggerKind.all.getD c .manual

/-- The lost count of a scanned record (R180): pre_count plus post count, here `written`, less the samples held. A record
that holds more, with a second valid copy of a page, has the free value, at most `written` (DESIGN CHOICE, log
entry 56). -/
def scanLost (written held : Nat) : Nat :=
  if held ≤ written then written - held else min written (Config.lostOfMore written held)

/-- The trigger kind of an OPEN page (section 9.1.1); the free value for a byte that names none (DESIGN CHOICE, log
entry 60). -/
def scanKind (c : Nat) : TriggerKind := TriggerKind.ofCode (if c ≤ 11 then c else (Config.kindOfOther c).val)

/-- The close reason of a CLOSE page (section 9.1.1); the free value for a byte that names neither (DESIGN CHOICE, log
entry 60). -/
def scanReason (b : U8) : CloseReason :=
  if b = 0 then .postDone
  else if b = 1 then .lengthCap
  else if Config.lengthCapOfOther b then .lengthCap else .postDone

/-- The directory entry of one record from its valid pages (R180). Of several valid CLOSE pages the first in ascending
bank and page gives the fields (DESIGN CHOICE, log entry 44). -/
def scanEntry (t : Store) (opening : PageAddr) (group : List PageAddr) : DirEntry :=
  let o := t.read opening
  let held := (group.map (fun a => if pageKind (t.read a) = 2 then pageSamples (t.read a) else 0)).sum
  let pre := (byteAt o 24).toNat
  let close := group.find? (fun a => pageKind (t.read a) == 3)
  { incident := pageIncident o
    state := if close.isSome then .closed else .unclosed
    kind := scanKind (byteAt o 14).toNat
    cls := (byteAt o 15).toNat
    time := u32At o 16
    index := u32At o 20
    firstPage := some opening
    pageCount := group.length
    banks := (List.range 16).filter (fun i => group.any (fun a => a.bank == i))
    pre := pre
    close := close.map (fun a =>
      let c := t.read a
      { post := (u16At c 10).toNat
        closeLost := scanLost (pre + (u16At c 10).toNat) held
        extraCount := (u16At c 15).toNat
        reason := scanReason (byteAt c 17) })
    dropped := 0
    committed := held
    lastPage := none
    openDropped := false }

/-- An entry placed among entries that fall in incident number. -/
def insertEntry (e : DirEntry) : List DirEntry → List DirEntry
  | [] => [e]
  | f :: rest => if f.incident ≤ e.incident then e :: f :: rest else f :: insertEntry e rest

/-- Entries in falling order of incident number. -/
def sortEntries (l : List DirEntry) : List DirEntry := l.foldr insertEntry []

/-- The entries the scan builds: one for each group that holds a valid OPEN page, highest incident numbers
first. Of several valid OPEN pages of a group the first in ascending bank and page is its record's (DESIGN CHOICE, log
entry 44). -/
def Store.scannedEntries (t : Store) : List DirEntry :=
  let pages := t.scannedPages
  let opens := pages.filter (fun a => pageKind (t.read a) == 1)
  let firsts := opens.filter (fun a =>
    opens.find? (fun b => pageIncident (t.read b) == pageIncident (t.read a)) == some a)
  let entries := firsts.map (fun a =>
    scanEntry t a (pages.filter (fun b => pageIncident (t.read b) == pageIncident (t.read a))))
  sortEntries entries

/-- The end of the second part of the scan (R180): its entries stand behind those created meanwhile, up to 48
in all, and the store is DONE. -/
def Store.scanDone (t : Store) : Store :=
  { t with directory := (t.directory ++ t.scannedEntries).take Config.directorySize, scan := .done }

/-! ### Readout (R181 to R183) -/

/-- What readout comes to: a reply, with the cursor's item and place when the cursor is kept (none: cleared), or
one more page to read. -/
inductive ReadStep where
  | answer (res : Result) (data : ReplyData) (cursor : Option (Nat × Option ReadPlace))
  | goto (place : ReadPlace)
deriving DecidableEq, Repr

/-- A page failed the walk: DATA_CHECK with the item asked for and the page (R182). -/
def readFails (item : Nat) (a : Option PageAddr) : ReadStep := .answer .dataCheck (.readFailed item a) none

/-- A record's CLOSE page is not yet committed. -/
def Store.closePending (t : Store) (e : DirEntry) : Bool :=
  e.state == .capturing || (e.state == .closed && t.closeQueued e.incident)

/-- The item is not yet on a committed page (R182). Item 0 of a record whose OPEN page was dropped is none to come
(DESIGN CHOICE, log entry 51). -/
def DirEntry.notCommitted (e : DirEntry) (item : Nat) : Bool :=
  if item = 0 then e.firstPage.isNone && !e.openDropped else e.committed < item

/-- The samples a CLOSED record holds: pre_count plus post count less lost count. -/
def DirEntry.held (e : DirEntry) : Nat :=
  match e.close with
  | some c => e.pre + c.post - (c.closeLost + e.dropped)
  | none => e.committed

/-- The judgement of a read before its walk (R182), the first case that applies. -/
def Store.judgeRead (t : Store) (incident item : Nat) (place : Option ReadPlace) : ReadStep :=
  match t.entry incident with
  | none => .answer .recordGone .empty none
  | some e =>
    if e.state = .closed ∧ e.held + 1 < item then .answer .refusedArg .empty none
    else if e.state = .unclosed ∧ e.committed < item then .answer .endOfRecord .empty none
    else if t.closePending e && e.notCommitted item then .answer .notYet .empty (some (item, place))
    else if item = 0 ∧ e.openDropped then readFails 0 none
    else
      match e.firstPage with
      | some a => .goto ⟨a, 0⟩
      | none => readFails item none

/-- The first page from `p` on, in a bank, that is not void. -/
def Store.firstNotVoid (t : Store) (bank p : Nat) : Option PageAddr :=
  ((List.range 64).find? (fun q => p ≤ q && pageClass (t.read ⟨bank, q⟩) != .void)).map (fun q => ⟨bank, q⟩)

/-- The samples on a page. -/
def samplesOn (b : Bytes) : Nat := if pageKind b = 2 then pageSamples b else 0

/-- Where the next code of a page leads. -/
def Store.follow (t : Store) (e : DirEntry) (item : Nat) (place : ReadPlace) : ReadStep :=
  let b := t.read place.addr
  let next (a : Option PageAddr) : ReadStep :=
    match a with
    | some a => .goto ⟨a, place.counted + samplesOn b⟩
    | none => readFails item (some place.addr)
  match NextCode.ofByte (pageNext b) with
  | .none =>
    if e.state = .unclosed then .answer .endOfRecord .empty none
    else if t.closePending e then .answer .notYet .empty (some (item, some place))
    else readFails item (some place.addr)
  | .finish => readFails item (some place.addr)
  | .following => next (t.firstNotVoid place.addr.bank (place.addr.page + 1))
  | .bank n => next (t.firstNotVoid n 0)
  | .broken => readFails item (some place.addr)

/-- The item, when it lies on a page of the record (R181): the OPEN data, one sample, or the CLOSE data. -/
def itemOn (b : Bytes) (counted item : Nat) : Option Bytes :=
  match pageKind b with
  | 1 => if item = 0 then some ((b.drop 10).take 20) else none
  | 2 =>
    if counted < item ∧ item ≤ counted + pageSamples b then
      some ((b.drop (10 + 58 * (item - counted - 1))).take 58)
    else none
  | _ => if item = counted + 1 then some ((b.drop 10).take 89) else none

/-- A page of the walk: it fails, holds the item, or leads on (R182). The cursor after the item keeps this page as its
place, also when the page holds no further item (DESIGN CHOICE, log entry 59). -/
def Store.examine (t : Store) (e : DirEntry) (item : Nat) (place : ReadPlace) : ReadStep :=
  let b := t.read place.addr
  if pageClass b ≠ .valid ∨ pageIncident b ≠ e.incident then readFails item (some place.addr)
  else
    match itemOn b place.counted item with
    | some x =>
      .answer .done (.item item place.addr x) (if pageKind b = 3 then none else some (item + 1, some place))
    | none => t.follow e item place

/-- A page read has ended: the walk continues or the read is answered; RECORD_GONE when the entry has been
removed meanwhile (R182). -/
def Store.walkStep (t : Store) (w : Walk) : ReadStep :=
  match t.entry w.incident with
  | none => .answer .recordGone .empty none
  | some e => t.examine e w.item w.place

/-- READ_NEXT at the cursor (R183): the item lies on the page last read, or its next code leads on; without a
page read so far the walk begins as for READ_RECORD. -/
def Store.readAtCursor (t : Store) (c : ReadCursor) : ReadStep :=
  match t.judgeRead c.incident c.item c.place, c.place, t.entry c.incident with
  | .goto _, some p, some e => t.examine e c.item p
  | r, _, _ => r

/-! ### Information (R184, R186) -/

def Store.entryInfo (t : Store) (e : DirEntry) : EntryInfo :=
  { incident := e.incident, state := e.state, kind := e.kind, cls := e.cls, time := e.time, index := e.index
    firstPage := e.firstPage, pageCount := e.pageCount, banks := e.banks, pre := e.pre
    post := e.close.map (fun c => c.post), lost := e.lost
    extraCount := e.close.map (fun c => c.extraCount), pinned := t.pins.contains e.incident
    reason := e.close.map (fun c => c.reason) }

/-- The store's state (R186). The head page's attempt is the one under way or next to come, the attempts made and one
more, also before the first has begun (DESIGN CHOICE, log entry 43). -/
def Store.info (t : Store) : StoreInfo :=
  { scan := t.scan, banks := t.banks, writable := t.writable, queued := t.queue.length
    head := t.queue.head?.map (fun q => (q.page.seq, q.attempts + 1))
    op := t.op, nextIncident := t.nextIncident, pins := t.pins, cursor := t.cursor }

/-! ### What a reset or a loss of supply cuts (R187) -/

/-- A page that reads bad, whatever bytes are given: bytes that would class otherwise are replaced. -/
def asBad (b : Bytes) : Bytes :=
  if pageClass b = .bad then b else 0x00 :: List.replicate 589 0xFF

/-- The page of a bank under erase that a cut leaves not erased where the pages named would not leave the bank partly
erased: the last one written, page 63 where none above page 0 is. -/
def lastWritten (l : List (Nat × Bytes)) (bank : Nat) : Nat :=
  match (writtenPages l bank).getLast? with
  | some (p + 1) => p + 1
  | _ => 63

/-- A bank whose erase was cut is partly erased (R187): the pages named read erased. Where that would leave no erased
page below one that is not, page 0 reads erased and one page above it does not (log entry 25). -/
def cutErase (bank : Nat) (erased : BitVec 64) (l : List (Nat × Bytes)) : List (Nat × Bytes) :=
  let m := l.filter (fun x => !(x.1 / 64 == bank && erased.getLsbD (x.1 % 64)))
  if partlyErased m bank then m
  else
    let n := 64 * bank + lastWritten l bank
    let b := lookupPage l n
    writePage n (if isErased b then asBad b else b) (writePage (64 * bank) erasedPage m)

/-- The memory after the operation in progress was cut: a commit leaves its page bad, void or whole (and, when
whole, the next code of the record's last page unprogrammed, or as it reads); an erase leaves its bank partly
erased. -/
def Store.cutPages (t : Store) (c : Cut) : List (Nat × Bytes) :=
  match t.op with
  | .commit a =>
    (match t.queue.head?, c.page with
      | none, _ => t.pages
      | some _, .void => (t.write a (List.replicate 590 0)).pages
      | some _, .bad b => (t.write a (asBad b)).pages
      | some q, .whole =>
        (match c.next with
          | none => (t.write a q.page.bytes).pages
          | some n => ((t.linkPrevious q.page a (some n)).write a q.page.bytes).pages))
  | .erase i => cutErase i c.erased t.pages
  | _ => t.pages

end Sys2Proof.Machine
end

