-- ==== Sys2Proof/Machine/StoreOps.lean ====
section
/-!
DEFINITION. The record store at work (chapter 9): the arbiter, the ends of its operations, and the answers of
the orders that take the long-order slot. Functions of the store give back what the rest of the part must do.
-/

namespace Sys2Proof.Machine

/-! ### The arbiter (R171, R172) -/

/-- Start the next operation when no commit can be: a waiting page read, then the oldest waiting erase. -/
def Store.startOther (t : Store) : Store :=
  match t.job, t.erases with
  | some (.walk w), _ => { t with op := .read w.place.addr }
  | _, i :: _ => { t with op := .erase i }
  | _, [] => t

/-- The arbiter: while the store is idle and the scan is over it starts the next operation. The oldest queued
page is committed in the WRITING bank, or in the next ERASED bank, which becomes WRITING; with no place to come
it is dropped (R171). The second component says that a page was dropped. -/
def Store.arbiter (k : Nat) : Nat → Store → Store × Bool
  | 0, t => (t, false)
  | n + 1, t =>
    if t.op ≠ .idle ∨ t.scan = .scanning then (t, false)
    else if t.queue.isEmpty then (t.startOther, false)
    else
      match t.writing, t.nextErased with
      | some i, _ => ({ t with op := .commit ⟨i, (t.bank i).pointer⟩ }, false)
      | none, some i => (({ t.makeWriting i with op := .commit ⟨i, 0⟩ }).judgeReclaim k, false)
      | none, none =>
        if 0 < t.roomBanks then (t.startOther, false)
        else
          let t1 := t.judgeReclaim k
          if 0 < t1.roomBanks then (t1.startOther, false)
          else ((Store.arbiter k n (t1.dropHead.judgeReclaim k)).1, true)

/-- Reclaim is judged and the arbiter starts what it can. -/
def Store.dispatch (t : Store) (k : Nat) : Store × Bool := Store.arbiter k 8 (t.judgeReclaim k)

/-- The retention level of the active set (R175). -/
def State.retention (s : State) : Nat := s.tbl.recorder.retention.toNat

def State.withStore (s : State) (t : Store) : State := { s with store := t }

/-! ### The ends of operations -/

/-- An erase ends (R176): the pages left read as given, and the bank is ERASED with mismatch run 0 when every
page reads erased, otherwise RETIRED with its mark. The second component says that the verify failed. -/
def Store.eraseEnds (t : Store) (i : Nat) (left : List (Nat × Bytes)) : Store × Bool :=
  let pages := erasePagesLeaving i left t.pages
  let t1 := { t with pages := pages, op := .idle, erases := t.erases.filter (· != i) }
  if (writtenPages pages i).isEmpty then
    (t1.setBank i { t1.bank i with state := .erased, mismatch := 0, pointer := 0 }, false)
  else (t1.retire i, true)

/-- The CLEAR_STORE under way after one of its erases has ended (R185): one bank more is erased, and of those banks one
more has failed when its verify did. -/
def StoreJob.afterErase (j : StoreJob) (i : Nat) (failed : Bool) : StoreJob :=
  match j with
  | .clearing r bs e f =>
    if bs.contains i then
      .clearing r (bs.filter (· != i)) (e + 1) (if failed then f + 1 else f)
    else j
  | _ => j

/-! ### Readout -/

/-- The cursor after a readout reply (R182, R183): READ_RECORD without its continue flag clears it. -/
def Store.setCursor (t : Store) (keep : Bool) (incident : Nat) (c : Option (Nat × Option ReadPlace)) : Store :=
  { t with cursor := if keep then c.map (fun x => ⟨incident, x.1, x.2⟩) else none }

/-- What a readout step comes to: the reply that frees the slot, or one more page read to wait for. The cursor stays as
it stood until the reply, which clears or sets it (DESIGN CHOICE, log entry 52). -/
def State.readStep (incident item : Nat) (keep : Bool) (r : ReadStep) (s : State) : State :=
  match r with
  | .answer res data c =>
    (s.withStore ({ s.store with job := none }.setCursor keep incident c)).answerLong res data
  | .goto p => s.withStore { s.store with job := some (.walk ⟨incident, item, keep, p⟩) }

/-- READ_RECORD is judged (R182). -/
def State.judgeReadRecord (incident item : Nat) (keep : Bool) (s : State) : State :=
  s.readStep incident item keep (s.store.judgeRead incident item none)

/-- READ_NEXT is judged (R183): REFUSED_STATE without a cursor. -/
def State.judgeReadNext (s : State) : State :=
  match s.store.cursor with
  | none => (s.withStore { s.store with job := none }).answerLong .refusedState .empty
  | some c => s.readStep c.incident c.item true (s.store.readAtCursor c)

/-- LIST_RECORDS is answered (R184). -/
def State.judgeListRecords (start : Nat) (s : State) : State :=
  (s.withStore { s.store with job := none }).answerLong .done
    (.records s.store.directory.length
      (((s.store.directory.drop start).take 4).map s.store.entryInfo))

/-! ### CLEAR_STORE (R185) -/

/-- The banks CLEAR_STORE chooses: FILLED or WRITING without a page of a protected record, ascending. -/
def Store.clearable (t : Store) (k : Nat) : List Nat :=
  (List.range 16).filter (fun i => (t.bankIs .filled i || t.bankIs .writing i) && !t.bankProtected k i)

/-- The store after CLEAR_STORE took its entries and chose its banks. -/
def Store.clear (t : Store) (k : Nat) : Store :=
  let gone := t.directory.filter (fun e => !t.isProtected k e)
  let t1 := t.removeEntries (fun e => !t.isProtected k e)
  let banks := t1.clearable k
  { banks.foldl Store.queueErase t1 with job := some (.clearing gone.length banks 0 0) }

/-- CLEAR_STORE is answered when every erase that it queued has ended. -/
def State.finishClear (s : State) : State :=
  match s.store.job with
  | some (.clearing r [] e f) =>
    (s.withStore { s.store with job := none }).answerLong .done (.cleared r e f)
  | _ => s

/-- CLEAR_STORE is judged: outside MAINTENANCE it is refused. -/
def State.judgeClear (s : State) : State :=
  if s.control.partState ≠ .maintenance then
    (s.withStore { s.store with job := none }).answerLong .refusedState .empty
  else (s.withStore (s.store.clear s.retention)).finishClear

/-- The long order that waited for the scan is taken when the scan ends (R180). -/
def State.takeWaiting (s : State) : State :=
  match s.store.job with
  | some (.scanRead i n keep) => s.judgeReadRecord i n keep
  | some .scanNext => s.judgeReadNext
  | some (.scanList start) => s.judgeListRecords start
  | some .scanClear => s.judgeClear
  | _ => s

end Sys2Proof.Machine
end

