-- ==== Sys2Proof/Machine/CaptureOps.lean ====
section
/-!
DEFINITION. The capture unit (chapter 8): building pages, the work of capture and store together, captures,
triggers and samples.
-/

namespace Sys2Proof.Machine

/-! ### Building pages (R163) -/

/-- The samples of the ring from an index onward. -/
def Capture.ringFrom (c : Capture) (i : U32) : List Sample :=
  match c.ring with
  | [] => []
  | x :: _ => c.ring.drop (i - x.index).toNat

/-- The samples of the record still to be built once its last sample is fixed. -/
def CaptureRecord.unbuilt (r : CaptureRecord) (last : U32) : Nat := (last + 1 - r.cursor).toNat

/-- The CLOSE data of a capture (R163). -/
def CaptureRecord.closing (r : CaptureRecord) (reason : CloseReason) : CloseData :=
  { post := r.post, lost := r.lost, cls := r.cls, extraCount := r.extraCount, reason := reason,
    extras := r.extras }

/-- The next page of a capture, when it is ready (R163). -/
def Capture.readyPage (c : Capture) (r : CaptureRecord) : Option PageBody :=
  if r.nextPage = 0 then some (.opening r.opening)
  else
    match r.phase with
    | .collecting =>
      let l := (c.ringFrom r.cursor).take Config.pageSamples
      if l.length = Config.pageSamples then some (.samples l) else none
    | .flushing last reason =>
      let l := (c.ringFrom r.cursor).take (min Config.pageSamples (r.unbuilt last))
      if l.isEmpty then some (.closing (r.closing reason)) else some (.samples l)

/-- The capture unit after a page has been placed: past its samples, or, after the CLOSE page, ended (R165). -/
def Capture.placed (c : Capture) (r : CaptureRecord) (body : PageBody) : Capture :=
  match body with
  | .closing _ => { c with record := none, recorder := if r.rearm then .armed else .disarmed }
  | _ =>
    { c with
      record := some { r with cursor := r.cursor + BitVec.ofNat 32 body.sampleCount
                              nextPage := r.nextPage + 1 } }

/-- Build pages until the commit queue is full or no page is ready. -/
def State.buildPages : Nat → State → State
  | 0, s => s
  | n + 1, s =>
    match s.capture.record with
    | none => s
    | some r =>
      if Config.commitQueue ≤ s.store.queue.length then s
      else
        match s.capture.readyPage r with
        | none => s
        | some body =>
          State.buildPages n
            { s with
              store := { s.store with queue := s.store.queue ++ [⟨⟨r.incident, r.nextPage, body⟩, 0⟩] }
              capture := s.capture.placed r body }

/-- Capture unit and record store work until neither has anything to do: pages are built while the queue has
room, reclaim is judged, and the arbiter starts the next operation. A page that is dropped gives room (R171). -/
def State.storeWork : Nat → State → State
  | 0, s => s
  | n + 1, s =>
    let s1 := State.buildPages 4 s
    let d := s1.store.dispatch s1.retention
    let s2 := (s1.withStore d.1).setFlagIf d.2 .pageDropped
    if d.2 then State.storeWork n s2 else s2

/-- Capture unit and record store at work. A capture builds at most 127 pages. -/
def State.runStore (s : State) : State := State.storeWork 140 s

/-! ### Captures and triggers (R156 to R160) -/

/-- Change the capture in progress. -/
def State.mapRecord (f : CaptureRecord → CaptureRecord) (s : State) : State :=
  { s with capture := { s.capture with record := s.capture.record.map f } }

/-- The record store has room for a whole record (R158). -/
def State.storeHasRoom (s : State) : Bool := Config.recordPages ≤ s.store.writable

/-- The capture record at the start of a capture (R159). -/
def State.newRecord (kind : TriggerKind) (e : TriggerEntry) (s : State) : CaptureRecord :=
  let pre := min e.pre.toNat s.capture.ring.length
  let first := s.capture.counter - BitVec.ofNat 32 pre
  { incident := s.store.nextIncident, kind := kind, time := s.time, index := s.capture.counter
    cls := e.cls.toNat, pre := pre, first := first, countdown := e.post.toNat, post := 0, cursor := first
    nextPage := 0, lost := 0, extras := [], extraCount := 0, rearm := s.tbl.recorder.autoRearm != 0
    phase := .collecting
    opening :=
      { incident := s.store.nextIncident, kind := kind, cls := e.cls.toNat, time := s.time
        index := s.capture.counter, pre := pre, setNumber := s.tables.active.number
        setCrc := s.tables.active.crc, partState := s.control.partState } }

/-- Steps 1 to 4 of a capture's start, but for the building of its pages (R159). -/
def State.beginCapture (kind : TriggerKind) (e : TriggerEntry) (s : State) : State :=
  let r := s.newRecord kind e
  { s with
    store := s.store.createEntry s.retention kind r.cls s.time r.index r.pre
    capture := { s.capture with recorder := .capturing, record := some r } }

/-- A capture starts (R159); with a post window of 0 it closes at once. -/
def State.startCapture (kind : TriggerKind) (e : TriggerEntry) (s : State) : State :=
  let s1 := (s.beginCapture kind e).runStore
  if e.post.toNat = 0 then
    (s1.mapRecord (fun r => { r with phase := .flushing (r.index - 1) .postDone })).runStore
  else s1

/-- A trigger is noted in a capture (R160). One of a higher class in COLLECTING takes over countdown and class also when
the list is full (DESIGN CHOICE, log entry 64). -/
def CaptureRecord.note (kind : TriggerKind) (e : TriggerEntry) (time : LinkTime) (index : U32)
    (r : CaptureRecord) : CaptureRecord :=
  let r1 :=
    { r with
      extraCount := satAdd 65535 r.extraCount 1
      extras := if r.extras.length < 8 then r.extras ++ [⟨kind, e.cls.toNat, time, index⟩] else r.extras }
  match r.phase with
  | .flushing _ _ => r1
  | .collecting =>
    if r.cls < e.cls.toNat then
      { r1 with
        cls := e.cls.toNat, countdown := e.post.toNat
        phase := if e.post.toNat = 0 then .flushing (index - 1) .postDone else .collecting }
    else r1

/-- An enabled trigger while CAPTURING (R160); a capture that it closes goes on to build what is ready. -/
def State.noteTrigger (kind : TriggerKind) (e : TriggerEntry) (s : State) : State :=
  (s.mapRecord (CaptureRecord.note kind e s.time s.capture.counter)).runStore

/-- A trigger is taken under its entry and the recorder state (R156, R158). -/
def State.takeTrigger (kind : TriggerKind) (s : State) : State :=
  let e := s.tbl.triggerEntry kind.code
  if e.enabled = 0 then s
  else
    match s.capture.recorder with
    | .disarmed =>
      { s with capture := { s.capture with missedDisarmed := satAdd 65535 s.capture.missedDisarmed 1 } }
    | .armed =>
      if s.storeHasRoom then s.startCapture kind e
      else
        State.setFlag .storeFull
          { s with capture := { s.capture with missedFull := satAdd 65535 s.capture.missedFull 1 } }
    | .capturing => s.noteTrigger kind e

/-- What TRIGGER answers (R161), judged before the trigger is taken. -/
def State.triggerOutcome (s : State) : TriggerOutcome :=
  if (s.tbl.triggerEntry TriggerKind.manual.code).enabled = 0 then .ignored
  else
    match s.capture.recorder with
    | .armed => if s.storeHasRoom then .started s.store.nextIncident else .missedFull
    | _ => .missedDisarmed

/-! ### Samples (R152 to R154, R162, R164) -/

/-- The feedback of a truck when it is valid. -/
def Feedback.value : Feedback → Option Nat
  | .valid p _ => some p
  | _ => none

/-- The demand fields of a sample: present while the record is present and its source FRESH (R153). -/
def State.sampleDemand (s : State) : Option (Nat × Nat × Bool) :=
  if s.roleFresh .demand then s.control.demand.map (fun d => (d.raw, d.clamped, d.emergency)) else none

/-- The sample at a computation event; `shortfall` is that of the computation made at it, if any (R152). -/
def State.sample (event : CompEvent) (shortfall : Option Nat) (s : State) : Sample :=
  { index := s.capture.counter, time := s.time, event := event, partState := s.control.partState
    demand := s.sampleDemand, vref := s.slide.vref
    speeds := PerAxle.ofFn (fun a => (s.slide.axles.get a).speed)
    slide := PerAxle.ofFn (fun a => (s.slide.axles.get a).state)
    efforts := s.builder.last.cmd.efforts, pressures := s.builder.last.cmd.pressures
    feedback := PerTruck.ofFn (fun t => (s.builder.feedback.get t).value)
    actions := PerTruck.ofFn (fun t => (s.builder.trucks.get t).action)
    heat := s.capability.heat, thermal := s.capability.thermal, shortfall := shortfall }

/-- The record loses a sample that leaves the ring at its build cursor (R164). In FLUSHING a sample past the
record's last one is none of the record's (DEDUCED, log entry 17). -/
def CaptureRecord.lose (r : CaptureRecord) (removed : U32) : CaptureRecord :=
  let owned : Bool :=
    match r.phase with
    | .collecting => true
    | .flushing last _ => 0 < r.unbuilt last
  if removed = r.cursor ∧ owned = true then { r with cursor := removed + 1, lost := r.lost + 1 } else r

/-- A sample enters the ring (R154). -/
def Capture.enterRing (c : Capture) (x : Sample) : Capture :=
  match c.ring with
  | [] => { c with ring := [x] }
  | old :: rest =>
    if c.ring.length < Config.ringSize then { c with ring := c.ring ++ [x] }
    else { c with ring := rest ++ [x], record := c.record.map (fun r => r.lose old.index) }

/-- A sample is counted against a capture (R162). -/
def CaptureRecord.count (r : CaptureRecord) (index : U32) : CaptureRecord :=
  match r.phase with
  | .flushing _ _ => r
  | .collecting =>
    let post := r.post + 1
    let left := r.countdown - 1
    let r1 := { r with post := post, countdown := left }
    if left = 0 then { r1 with phase := .flushing index .postDone }
    else if Config.lengthCap ≤ r.pre + post then { r1 with phase := .flushing index .lengthCap }
    else r1

/-- The capture unit after a sample, before any page is built. -/
def Capture.take (c : Capture) (x : Sample) : Capture :=
  let c1 := c.enterRing x
  { c1 with counter := c.counter + 1, record := c1.record.map (fun r => r.count x.index) }

/-- The capture unit takes one sample (R152). -/
def State.takeSample (event : CompEvent) (shortfall : Option Nat) (s : State) : State :=
  ({ s with capture := s.capture.take (s.sample event shortfall) }).runStore

end Sys2Proof.Machine
end

