-- ==== Sys2Proof/Machine/CapabilityOps.lean ====
section
/-!
DEFINITION. The capability unit (chapter 3): the capability curve, inverter reports, the grid heat index, the
derate factor and the thermal states.
-/

namespace Sys2Proof.Machine

/-! ### The curve (R46) -/

/-- The value between two breakpoints, the correction rounded toward zero. -/
def interpolate (p q : Breakpoint) (v : Nat) : Nat :=
  let run := v - p.speed.toNat
  let width := q.speed.toNat - p.speed.toNat
  if p.effort.toNat ≤ q.effort.toNat then p.effort.toNat + (q.effort.toNat - p.effort.toNat) * run / width
  else p.effort.toNat - (p.effort.toNat - q.effort.toNat) * run / width

/-- The curve value over a list of breakpoints with rising speeds. -/
def curveOn : List Breakpoint → Nat → Nat
  | [], _ => 0
  | [p], _ => p.effort.toNat
  | p :: q :: rest, v =>
    if v ≤ p.speed.toNat then p.effort.toNat
    else if v < q.speed.toNat then interpolate p q v
    else curveOn (q :: rest) v

/-- The curve value at a speed, from the first n breakpoints (R45, R46). -/
def TableSet.curve (t : TableSet) (v : Nat) : Nat := curveOn (t.breakpoints.take t.curveCount) v

/-! ### Derate factor and thermal state (R56, R57) -/

/-- The derate factor f, in units of 1/1024 (R56). -/
def derate (t : ThermalRec) (state : Thermal) (h : Nat) : Nat :=
  if state = .trip then 0
  else if h ≤ t.hDerate.toNat then 1024
  else if h < t.hTrip.toNat then 1024 * (t.hTrip.toNat - h) / (t.hTrip.toNat - t.hDerate.toNat)
  else 0

/-- The thermal state after an evaluation (R57, R59). -/
def thermalNext (t : ThermalRec) (state : Thermal) (h : Nat) : Thermal :=
  match state with
  | .trip => if h ≤ t.hReset.toNat then .normal else .trip
  | _ => if t.hTrip.toNat ≤ h then .trip else if t.hDerate.toNat < h then .derate else .normal

def State.derateFactor (s : State) : Nat := derate s.tbl.thermal s.capability.thermal s.capability.heat

/-- The derated curve value at the current Vref (R48). -/
def State.deratedCurve (s : State) : Nat := s.tbl.curve s.slide.vref * s.derateFactor / 1024

/-- The thermal state is evaluated, with the flags and the trigger of an entry (R57, R58). -/
def State.evaluateThermal (s : State) : State :=
  let before := s.capability.thermal
  let now := thermalNext s.tbl.thermal before s.capability.heat
  let s1 := { s with capability := { s.capability with thermal := now } }
  if now = before then s1
  else
    match now with
    | .normal => s1
    | .derate => s1.setFlag .thermalDerate
    | .trip => (s1.setFlag .thermalTrip).takeTrigger .thermalTrip

/-! ### Inverter reports (R49, R50) -/

/-- One axle's entry of an accepted report. -/
def reportTaken (r : InverterReport) : InverterState :=
  { limit := if r.fault = 0 then r.limit.toNat else 0, achieved := r.achieved.toNat, fault := r.fault != 0 }

/-- The axles of an inverter node, ascending. -/
def inverterAxles : Inverter → List Axle
  | .a => [.e1, .e2, .e3]
  | .b => [.e4, .e5, .e6]

/-- The entries of a report in place of the node's three axles. -/
def placeReport (n : Inverter) (p : EffortPayload) (v : PerAxle InverterState) : PerAxle InverterState :=
  match n with
  | .a => { v with a1 := reportTaken p.r1, a2 := reportTaken p.r2, a3 := reportTaken p.r3 }
  | .b => { v with a4 := reportTaken p.r1, a5 := reportTaken p.r2, a6 := reportTaken p.r3 }

/-- A present axle of the node has its fault set. -/
def State.nodeFaulted (s : State) (n : Inverter) : Bool :=
  (inverterAxles n).any (fun a => s.tbl.present a && (s.capability.inverters.get a).fault)

/-- An accepted EFFORT_REPORT (R49). -/
def State.takeEffortReport (n : Inverter) (p : EffortPayload) (s : State) : State :=
  let s1 := { s with capability := { s.capability with inverters := placeReport n p s.capability.inverters } }
  s1.setFlagIf (s1.nodeFaulted n) .inverterFault

/-- A stale report of an inverter role (R50): its axles' limits become 0. -/
def State.inverterStale (n : Inverter) (s : State) : State :=
  let zero (v : PerAxle InverterState) (a : Axle) := v.set a { v.get a with limit := 0 }
  let s1 :=
    { s with capability := { s.capability with inverters := (inverterAxles n).foldl zero s.capability.inverters } }
  (s1.setFlag .inverterStale).takeTrigger .inverterLoss

/-! ### The grid heat index (R54, R55) -/

/-- One axle's value in E_sum (R54): the achieved effort while its inverter source is FRESH, otherwise the
effort last emitted; 0 for an absent axle. -/
def State.axleEffort (s : State) (a : Axle) : Nat :=
  if !s.tbl.present a then 0
  else if s.roleFresh (inverterRole a.inverter) then (s.capability.inverters.get a).achieved
  else s.builder.last.cmd.efforts.get a

def State.effortSum (s : State) : Nat := (PerAxle.ofFn s.axleEffort).sum

/-- H and its remainders after one interval (R55). -/
def Capability.heatStep (c : Capability) (pCool eSum vref dt : Nat) : Capability :=
  let heatNum := eSum * vref * dt + c.remIn
  let coolNum := pCool * dt + c.remCool
  let up := c.heat + heatNum / 3600000
  let cool := coolNum / 1000
  if up < cool then { c with heat := 0 }
  else { c with heat := min 999999 (up - cool), remIn := heatNum % 3600000, remCool := coolNum % 1000 }

/-- The heat update of a speed sample that is not a discontinuity (R52, R55, R57). -/
def State.heatUpdate (dt : Nat) (s : State) : State :=
  State.evaluateThermal
    { s with
      capability := s.capability.heatStep s.tbl.thermal.pCool.toNat s.effortSum s.slide.vref dt }

/-! ### Inquiry (R60) -/

def State.capabilityInfo (s : State) : CapabilityInfo :=
  { axles := PerAxle.ofFn (fun a =>
      let i := s.capability.inverters.get a
      ⟨s.tbl.present a, s.tbl.unlimited a, i.limit, i.achieved, i.fault⟩)
    inverterA := s.roleFreshness .inverterA, inverterB := s.roleFreshness .inverterB
    heat := s.capability.heat, remIn := s.capability.remIn, remCool := s.capability.remCool
    thermal := s.capability.thermal, derate := s.derateFactor
    curve := s.tbl.curve s.slide.vref, derated := s.deratedCurve }

end Sys2Proof.Machine
end

