-- ==== Sys2Proof/Machine/BuilderOps.lean ====
section
/-!
DEFINITION. The command builder (chapter 6): truck actions, emissions, air supervision and lag calibration,
with the lag write of the table store (R143).
-/

namespace Sys2Proof.Machine

def State.truckEntry (s : State) (t : Truck) : TruckEntry := s.tbl.trucks.get t
def State.axleMode (s : State) (a : Axle) : Mode := (s.control.axles.get a).mode
def State.truckMode (s : State) (t : Truck) : Mode := (s.control.trucks.get t).mode
def State.inControl (s : State) : Bool := s.control.partState.inControl
def State.slideLimit (s : State) (a : Axle) : Nat := (s.slide.axles.get a).limit

def State.withBuilder (s : State) (b : Builder) : State := { s with builder := b }

/-- Write a truck's channel. -/
def State.setTruckChannel (t : Truck) (e : ChannelEntry) (s : State) : State :=
  { s with control := { s.control with trucks := s.control.trucks.set t e } }

/-- Write an axle's channel. -/
def State.setAxleChannel (a : Axle) (e : ChannelEntry) (s : State) : State :=
  { s with control := { s.control with axles := s.control.axles.set a e } }

/-! ### Truck actions (R110 to R113) -/

/-- Some axle of a truck is LOCKED in the command builder's copy. -/
def Builder.truckLocked (b : Builder) (t : Truck) : Bool := t.axles.any (fun a => b.copy.get a == .locked)

/-- Some axle of a truck is SLIDING with the effort in question 0 or its channel OFF. -/
def State.truckSpent (s : State) (efforts : PerAxle Nat) (t : Truck) : Bool :=
  t.axles.any (fun a =>
    s.builder.copy.get a == .sliding && (efforts.get a == 0 || s.axleMode a == .off))

/-- The action derived for a truck, the first case that applies (R110). -/
def State.deriveAction (s : State) (efforts : PerAxle Nat) (t : Truck) : TruckAction :=
  if s.builder.truckLocked t then
    (if (s.builder.trucks.get t).action = .ventExpired then .ventExpired else .vent)
  else if s.truckSpent efforts t then .hold
  else .normal

/-- A truck's action record when it takes an action: entry to HOLD latches the pressure last emitted (R111),
entry to VENT sets the vent deadline (R112), and what the action does not have is removed. -/
def State.actionRecord (s : State) (t : Truck) (a : TruckAction) : ActionRecord :=
  let old := s.builder.trucks.get t
  match a with
  | .hold =>
    ⟨.hold, if old.action = .hold then old.hold else some (s.builder.last.cmd.pressures.get t), none⟩
  | .vent =>
    ⟨.vent, none, if old.action = .vent then old.vent else some (s.after (s.truckEntry t).ventMax.toNat)⟩
  | a => ⟨a, none, none⟩

/-- Both actions are derived, with the efforts in question given. -/
def State.deriveActions (efforts : PerAxle Nat) (s : State) : State :=
  s.withBuilder
    { s.builder with trucks := PerTruck.ofFn (fun t => s.actionRecord t (s.deriveAction efforts t)) }

/-- Both actions become NORMAL, with no hold pressure and no vent deadline (R110). -/
def State.normalActions (s : State) : State :=
  s.withBuilder { s.builder with trucks := ⟨⟨.normal, none, none⟩, ⟨.normal, none, none⟩⟩ }

/-- A truck has entered HOLD or VENT between two action records (R114). -/
def entersHoldOrVent (old new : TruckAction) : Bool := (new == .hold || new == .vent) && new != old

/-! ### Air supervision (R121 to R123) -/

def State.setSupervision (t : Truck) (r : Supervision) (s : State) : State :=
  s.withBuilder { s.builder with supervision := s.builder.supervision.set t r }

/-- A supervision record judged on a pressure just emitted, with the deadline an arming would set (R121). -/
def Supervision.judge (r : Supervision) (p : Nat) (deadline : LinkTime) : Supervision :=
  match r.state with
  | .late => { r with reference := min p r.reference }
  | .suspended => { r with reference := min p r.reference }
  | st => if r.reference + 20 ≤ p then ⟨.armed deadline, p⟩ else ⟨st, min p r.reference⟩

/-- The deadline of an arming: lag × 3 + margin after now. With lag 0 and margin 0 it is the present link time, and so
reached at once (DESIGN CHOICE, log entry 37). -/
def State.armDeadline (s : State) (t : Truck) : LinkTime :=
  s.after ((s.truckEntry t).lag.toNat * 3 + (s.truckEntry t).margin.toNat)

/-- The air supervision of a truck after an emission; a truck in CALIBRATE is not judged (R121). -/
def State.superviseTruck (t : Truck) (s : State) : State :=
  if s.truckMode t = .calibrate then s
  else
    s.setSupervision t
      ((s.builder.supervision.get t).judge (s.builder.last.cmd.pressures.get t) (s.armDeadline t))

/-- A supervision record judged on a valid feedback, given the pressure last emitted (R122). -/
def Supervision.answer (r : Supervision) (feedback last : Nat) : Supervision :=
  if feedback ≤ last + 10 ∧ last ≤ feedback + 10 then
    match r.state with
    | .armed _ => { r with state := .idle }
    | .late => ⟨.idle, last⟩
    | _ => r
  else r

/-- The supervision of a truck on the feedback just stored. -/
def State.answerTruck (t : Truck) (s : State) : State :=
  match (s.builder.feedback.get t).value with
  | some f =>
    s.setSupervision t ((s.builder.supervision.get t).answer f (s.builder.last.cmd.pressures.get t))
  | none => s

/-- A truck leaves SUSPENDED when the PRESSURE source is fresh again (R123). -/
def State.resumeTruck (t : Truck) (s : State) : State :=
  if (s.builder.supervision.get t).state = .suspended then
    s.setSupervision t ⟨.idle, s.builder.last.cmd.pressures.get t⟩
  else s

/-- A truck enters SUSPENDED unless it is in CALIBRATE (R123). -/
def State.suspendTruck (t : Truck) (s : State) : State :=
  if s.truckMode t = .calibrate then s
  else s.setSupervision t { s.builder.supervision.get t with state := .suspended }

/-- A stale report of the PRESSURE role (R120, R123). -/
def State.pressureStale (s : State) : State :=
  State.suspendTruck .b
    (State.suspendTruck .a (s.withBuilder { s.builder with feedback := ⟨.absent, .absent⟩ }))

/-! ### Emission (R115 to R119) -/

/-- The effort emitted on an axle (R116). An AUTO axle has the allocation table's effort, also one that was taken out of
AUTO and has become AUTO again before a computation (DESIGN CHOICE, log entry 38). -/
def State.emitEffort (s : State) (a : Axle) : Nat :=
  match s.axleMode a with
  | .off => 0
  | .auto => min (s.blender.alloc.efforts.get a) (s.slideLimit a)
  | .manual => min (s.control.axles.get a).manual (s.slideLimit a)
  | .calibrate => 0

def State.emitEfforts (s : State) : PerAxle Nat := PerAxle.ofFn s.emitEffort

/-- The pressure the calibration procedure gives (R125). -/
def Calibration.pressure (c : Calibration) : Nat :=
  match c.phase with
  | .settle => c.pOff
  | .step => c.pCal

/-- The base pressure of a truck (R117). An AUTO truck has the allocation table's entry, also one that was OFF and has
become AUTO again in FALLBACK before a computation (DESIGN CHOICE, log entry 38). -/
def State.basePressure (s : State) (t : Truck) : Nat :=
  match s.truckMode t with
  | .off => 0
  | .auto => s.blender.alloc.pressures.get t
  | .manual => (s.control.trucks.get t).manual
  | .calibrate => (s.builder.calibration.map Calibration.pressure).getD 0

/-- The pressure emitted for a truck, its base clamped by its action and by P_max (R117). -/
def State.emitPressure (s : State) (t : Truck) : Nat :=
  let base := min (s.basePressure t) (s.truckEntry t).pMax.toNat
  let r := s.builder.trucks.get t
  match r.action with
  | .hold => min base (r.hold.getD base)
  | .vent => min base (s.truckEntry t).pOff.toNat
  | _ => base

/-- A BRAKE_CMD is placed in the drive port's queue and becomes the last emitted command set, its command
sequence advanced by one, and supervision is judged (R109, R118). The sequence given is not used. -/
def State.putCommand (c : BrakeCmd) (s : State) : State :=
  let cmd := { c with seq := s.builder.last.cmd.seq + 1 }
  let s1 := s.enqueueOwn .drive (.brakeCmd cmd)
  State.superviseTruck .b
    (State.superviseTruck .a (s1.withBuilder { s1.builder with last := ⟨cmd, s.time⟩ }))

/-- An emission in ACTIVE, FALLBACK or MAINTENANCE (R118). -/
def State.emitControl (s : State) : State :=
  let efforts := s.emitEfforts
  let s1 := s.deriveActions efforts
  s1.putCommand
    { inControl := true, efforts := efforts, pressures := PerTruck.ofFn s1.emitPressure
      actions := PerTruck.ofFn (fun t => (s1.builder.trucks.get t).action), seq := 0 }

/-- An emission in STANDBY (R119). -/
def State.emitStandby (s : State) : State :=
  s.putCommand
    { inControl := false, efforts := PerAxle.const 0, pressures := ⟨0, 0⟩, actions := ⟨.normal, .normal⟩
      seq := 0 }

/-- The command builder takes a hand-off of the slide monitor whole (R114): the states changed, and whether a
re-emission is asked for. -/
def State.handOff (changed : List Axle) (request : Bool) (s : State) : State :=
  if changed.isEmpty && !request then s
  else
    let copy := changed.foldl (fun c a => c.set a (s.slide.axles.get a).state) s.builder.copy
    let s1 := s.withBuilder { s.builder with copy := copy }
    if !s1.inControl then s1
    else
      let s2 := s1.deriveActions s1.builder.last.cmd.efforts
      let entered (t : Truck) :=
        entersHoldOrVent (s1.builder.trucks.get t).action (s2.builder.trucks.get t).action
      if request || entered .a || entered .b then s2.emitControl else s2

/-! ### The lag write (R126, R143) -/

def TableSet.setLag (t : TableSet) (k : Truck) (lag : Nat) : TableSet :=
  { t with trucks := t.trucks.set k { t.trucks.get k with lag := BitVec.ofNat 16 lag } }

/-- A lag written into the staged set; a CRC formed already is formed anew. -/
def Staging.setLag (st : Staging) (k : Truck) (lag : Nat) : Staging :=
  match st with
  | .idle => .idle
  | .loading t => .loading (t.setLag k lag)
  | .awaitDecision t _ r => .awaitDecision (t.setLag k lag) (t.setLag k lag).crc r
  | .pendingSwitch t _ => .pendingSwitch (t.setLag k lag) (t.setLag k lag).crc

/-- A lag written into the active set, and into the staged set when there is one. -/
def State.writeLag (k : Truck) (lag : Nat) (s : State) : State :=
  let t := s.tbl.setLag k lag
  { s with
    tables :=
      { s.tables with
        active := { s.tables.active with tables := t, crc := t.crc }
        staging := s.tables.staging.setLag k lag } }

/-! ### Lag calibration (R125 to R128) -/

/-- The supervision of the truck at the end of its calibration (R128). -/
def State.endedSupervision (s : State) (t : Truck) : Supervision :=
  if s.roleFresh .pressure then ⟨.idle, s.builder.last.cmd.pressures.get t⟩
  else { s.builder.supervision.get t with state := .suspended }

/-- The ending of a calibration (R128). An ending that is part of leaving MAINTENANCE makes no emission of its
own. -/
def State.endCalibration (c : Calibration) (res : Result) (data : ReplyData) (leaving : Bool) (s : State) :
    State :=
  let s1 := (s.answerLong res data).setTruckChannel c.truck ⟨.manual, c.pOff⟩
  let s2 := s1.withBuilder { s1.builder with calibration := none }
  let s3 := s2.setSupervision c.truck (s2.endedSupervision c.truck)
  if s3.control.partState = .maintenance ∧ !leaving then s3.emitControl else s3

/-- The channel number of a truck. -/
def truckNumber : Truck → Nat
  | .a => 7
  | .b => 8

/-- A calibration in progress is aborted (R127). -/
def State.abortCalibration (leaving : Bool) (s : State) : State :=
  match s.builder.calibration with
  | none => s
  | some c => s.endCalibration c .calAborted (.calibrationEnded (truckNumber c.truck)) leaving

/-- The measurement ends with success (R126): the lag is the time since the step. -/
def State.calibrationDone (c : Calibration) (s : State) : State :=
  let lag := s.elapsed c.since
  (s.writeLag c.truck lag).endCalibration c .done (.calibrated (truckNumber c.truck) lag) false

/-- The measurement reaches its limit (R126). -/
def State.calibrationLimit (c : Calibration) (s : State) : State :=
  (s.setFlag .airResponse).endCalibration c .calTimeout (.calibrationEnded (truckNumber c.truck)) false

/-- The feedback just stored is judged by a calibration in STEP (R125). -/
def State.judgeCalibration (s : State) : State :=
  match s.builder.calibration with
  | none => s
  | some c =>
    match c.phase, (s.builder.feedback.get c.truck).value with
    | .step, some f => if c.threshold ≤ f then s.calibrationDone c else s
    | _, _ => s

/-- The threshold: P_off + 9 × (P_cal − P_off) / 10, floor (R124). -/
def calThreshold (pOff pCal : Nat) : Nat := pOff + 9 * (pCal - pOff) / 10

/-- The calibration of a truck starts (R124, R125). -/
def State.startCalibration (t : Truck) (pid : Nat) (tag : U8) (s : State) : State :=
  let e := s.truckEntry t
  let c : Calibration :=
    { truck := t, phase := .settle, since := s.time, pOff := e.pOff.toNat, pCal := e.pCal.toNat
      threshold := calThreshold e.pOff.toNat e.pCal.toNat, pid := pid, tag := tag }
  let s1 := s.setTruckChannel t ⟨.calibrate, (s.control.trucks.get t).manual⟩
  let s2 := s1.withBuilder { s1.builder with calibration := some c }
  State.emitControl (s2.setSupervision t { s2.builder.supervision.get t with state := .idle })

/-- The phase becomes STEP, and the emission fixes the step time (R125). -/
def State.stepCalibration (c : Calibration) (s : State) : State :=
  State.emitControl
    (s.withBuilder { s.builder with calibration := some { c with phase := .step, since := s.time } })

/-! ### Pressure telegrams (R120, R122, R123) -/

/-- A truck's feedback as stored from a telegram; an invalid one keeps no arrival time (DESIGN CHOICE, log entry 41). -/
def State.feedbackOf (s : State) (p : PressurePayload) (t : Truck) : Feedback :=
  match p.feedback t with
  | some v => .valid v s.time
  | none => .invalid

/-- An accepted CYL_PRESSURE: supervision resumes, the feedbacks are stored, supervision of both trucks is judged, and
then the calibration, whose end emits (DESIGN CHOICE for that order, log entry 54). -/
def State.takePressure (mark : Mark) (p : PressurePayload) (s : State) : State :=
  let s1 := if mark = .resumed then State.resumeTruck .b (State.resumeTruck .a s) else s
  let s2 := s1.withBuilder { s1.builder with feedback := PerTruck.ofFn (s1.feedbackOf p) }
  (State.answerTruck .b (State.answerTruck .a s2)).judgeCalibration

/-! ### Deadlines (R112, R122) -/

/-- A truck in VENT reaches its vent deadline (R112). -/
def State.ventExpire (t : Truck) (s : State) : State :=
  let s1 := s.withBuilder { s.builder with trucks := s.builder.trucks.set t ⟨.ventExpired, none, none⟩ }
  (s1.setFlag .ventExpired).takeTrigger .ventExpired

/-- An ARMED truck reaches its supervision deadline (R122). -/
def State.superviseLate (t : Truck) (s : State) : State :=
  let s1 := s.setSupervision t { s.builder.supervision.get t with state := .late }
  (s1.setFlag .airResponse).takeTrigger .airResponse

/-! ### Inquiry (R130) -/

def SupState.left (s : State) : SupState → Nat
  | .armed d => s.timeLeft d
  | _ => 0

def State.truckInfo (s : State) (t : Truck) : TruckCmdInfo :=
  let r := s.builder.trucks.get t
  let v := s.builder.supervision.get t
  { action := r.action, hold := r.hold, ventLeft := (r.vent.map s.timeLeft).getD 0
    feedback := s.builder.feedback.get t, supervision := v.state, reference := v.reference
    deadlineLeft := SupState.left s v.state }

def State.commandInfo (s : State) : CommandInfo :=
  { last := s.builder.last, trucks := PerTruck.ofFn s.truckInfo
    calibration := s.builder.calibration.map (fun c => (c.truck, c.phase, s.elapsed c.since, c.threshold)) }

end Sys2Proof.Machine
end

