-- ==== Sys2Proof/Machine/SlideOps.lean ====
section
/-!
DEFINITION. The part state's changes (chapter 2) and the slide monitor (chapter 5): reference speed, creep,
slide states, the adhesion estimate, attention, and the hand-off to the command builder.
-/

namespace Sys2Proof.Machine

/-! ### Changes of part state (R20, R26, R66, R110) -/

def State.withPartState (p : PartState) (s : State) : State :=
  { s with control := { s.control with partState := p } }

/-- A MANUAL channel becomes AUTO with manual value 0 (R26). -/
def ChannelEntry.toAuto (e : ChannelEntry) : ChannelEntry := if e.mode = .manual then ⟨.auto, 0⟩ else e

/-- Every MANUAL channel becomes AUTO (R26). -/
def Control.manualToAuto (c : Control) : Control :=
  { c with
    axles := PerAxle.ofFn (fun a => (c.axles.get a).toAuto)
    trucks := PerTruck.ofFn (fun t => (c.trucks.get t).toAuto) }

/-- What leaving MAINTENANCE brings about before anything in the new state (R26). -/
def State.leaveMaintenance (s : State) : State :=
  let s1 := s.abortCalibration true
  { s1 with control := s1.control.manualToAuto }

/-- The six electric efforts of the allocation table become 0 (R66); the modes under which its entries were written stay
(DESIGN CHOICE, log entry 40). -/
def AllocTable.zeroEfforts (t : AllocTable) : AllocTable := { t with efforts := PerAxle.const 0 }

/-- Every entry of the allocation table becomes 0 (R66); the modes stay (DESIGN CHOICE, log entry 40). -/
def AllocTable.zeroAll (t : AllocTable) : AllocTable :=
  { t with efforts := PerAxle.const 0, air := ⟨0, 0⟩, pressures := ⟨0, 0⟩ }

def State.withAlloc (t : AllocTable) (s : State) : State := { s with blender := { s.blender with alloc := t } }

/-- Entry of the part to ACTIVE or MAINTENANCE from STANDBY: both actions are derived from the copy, with the
efforts last emitted in question (R110). -/
def State.enterFromStandby (p : PartState) (s : State) : State :=
  (s.withPartState p).deriveActions s.builder.last.cmd.efforts

/-- Entry to ACTIVE from FALLBACK or MAINTENANCE. -/
def State.enterActive (s : State) : State := s.withPartState .active

/-- Entry to FALLBACK (R29, R66). -/
def State.enterFallback (s : State) : State :=
  let s1 := if s.control.partState = .maintenance then s.leaveMaintenance else s
  (s1.withPartState .fallback).withAlloc s1.blender.alloc.zeroEfforts

/-- Entry to STANDBY, but for the switch that may be pending (R66, R110). -/
def State.enterStandby (s : State) : State :=
  ((s.withPartState .standby).withAlloc s.blender.alloc.zeroAll).normalActions

/-- Vref is reported to the control unit (R28): motion above 300 sc ends MAINTENANCE. MAINT_MOTION is raised with the part
already in ACTIVE (DESIGN CHOICE, log entry 46). -/
def State.reportMotion (s : State) : State :=
  if s.control.partState = .maintenance ∧ 300 < s.slide.vref then
    (s.leaveMaintenance.enterActive).takeTrigger .maintMotion
  else s

/-- Vref is reported to the command builder (R88, R127): above 0 it aborts a calibration. -/
def State.reportCreeping (s : State) : State := if 0 < s.slide.vref then s.abortCalibration false else s

/-! ### The reference speed (R85 to R87) -/

/-- The step of a sample: none at a discontinuity (R85). -/
def Slide.timeStep (m : Slide) (time : U16) : Option Nat :=
  match m.lastSampleTime with
  | none => none
  | some t =>
    let dt := (time - t).toNat
    if dt = 0 ∨ 200 < dt then none else some dt

/-- The largest speed of some axles in a sample, 0 when none is valid. -/
def topSpeed (p : SpeedPayload) (axles : List Axle) : Nat := (axles.filterMap p.speed).foldl max 0

/-- A state whose axles supply the reference speed. -/
def SlideState.supplies : SlideState → Bool
  | .adhered => true
  | .suspect => true
  | .recovering => true
  | _ => false

/-- The valid axles of a sample, and those of them that supply the reference speed (R87). -/
def validAxles (p : SpeedPayload) : List Axle := Axle.all.filter (fun a => (p.speed a).isSome)

def Slide.supplying (m : Slide) (p : SpeedPayload) : List Axle :=
  let l := (validAxles p).filter (fun a => (m.axles.get a).state.supplies)
  if l.isEmpty then validAxles p else l

/-- The new reference speed at a continuous sample (R87). -/
def Slide.nextVref (m : Slide) (r : AdhesionRec) (p : SpeedPayload) (dt : Nat) : Nat :=
  let dec := r.dRef.toNat * dt / 1000
  let acc := r.aRef.toNat * dt / 1000
  if (validAxles p).isEmpty then m.vref - dec
  else max (m.vref - dec) (min (topSpeed p (m.supplying p)) (m.vref + acc))

/-- The reference speed a discontinuity re-seeds (R86). -/
def reseedVref (p : SpeedPayload) : Nat := topSpeed p (validAxles p)

/-! ### Creep (R89) -/

def creepOf (vref v : Nat) : Nat := vref - v

/-- The relative creep in ‰, at most 1000. -/
def relativeCreep (r : AdhesionRec) (vref c : Nat) : Nat := min 1000 (c * 1000 / max vref r.vFloor.toNat)

/-! ### Slide states (R92 to R100) -/

/-- Entry to a state (R92). -/
def SlideRecord.enter (x : SlideRecord) (st : SlideState) (limit : Nat) (now : LinkTime) : SlideRecord :=
  { x with state := st, limit := limit, consecutive := 0, entryTime := now }

/-- What an axle is judged on: the ADHESION record, its unlimited value, its effort last emitted when the sample
was taken, the new Vref and link time. -/
structure JudgeOn where
  par : AdhesionRec
  unlimited : Nat
  last : Nat
  vref : Nat
  now : LinkTime
deriving DecidableEq, Repr

/-- A limit cut by reduce_num sixteenths. -/
def JudgeOn.cut (j : JudgeOn) (limit : Nat) : Nat := min j.unlimited (limit * j.par.reduceNum.toNat / 16)

/-- The creep reaches the sliding thresholds. -/
def JudgeOn.slides (j : JudgeOn) (c r : Nat) : Bool := j.par.thSlide.toNat ≤ r || j.par.cAbs.toNat ≤ c

/-- Entry to SLIDING from a state in which the axle was not sliding: the last command cut. -/
def SlideRecord.enterSliding (x : SlideRecord) (j : JudgeOn) : SlideRecord := x.enter .sliding (j.cut j.last) j.now

/-- A RECOVERING axle that does not slide again (R98). -/
def SlideRecord.recover (x : SlideRecord) (j : JudgeOn) (r : Nat) : SlideRecord :=
  let count := if r < j.par.thRecover.toNat then satAdd 255 x.consecutive 1 else 0
  if j.par.nRec.toNat ≤ count then x.enter .adhered j.unlimited j.now
  else
    { x with
      consecutive := count
      limit :=
        if r < j.par.thSuspect.toNat then min j.unlimited (x.limit + j.par.restoreStep.toNat) else x.limit }

/-- A SENSOR_LOST axle that is valid (R100). -/
def SlideRecord.regain (x : SlideRecord) (j : JudgeOn) : SlideRecord :=
  if 3 ≤ x.consecutive + 1 then x.enter .adhered j.unlimited j.now
  else { x with consecutive := x.consecutive + 1 }

/-- The rule of a valid axle's state, the lock test having passed it by (R95 to R100). -/
def SlideRecord.judgeCreep (x : SlideRecord) (j : JudgeOn) (v c r : Nat) : SlideRecord :=
  match x.state with
  | .adhered =>
    if j.slides c r then x.enterSliding j
    else if j.par.thSuspect.toNat ≤ r then x.enter .suspect (min j.unlimited j.last) j.now
    else { x with limit := j.unlimited }
  | .suspect =>
    if j.slides c r then x.enterSliding j
    else if r < j.par.thRecover.toNat then x.enter .adhered j.unlimited j.now
    else x
  | .sliding =>
    if r < j.par.thSuspect.toNat then x.enter .recovering x.limit j.now
    else { x with limit := j.cut x.limit }
  | .recovering => if j.slides c r then x.enterSliding j else x.recover j r
  | .locked => if j.par.vLockAxle.toNat ≤ v then x.enterSliding j else { x with limit := 0 }
  | .sensorLost => x.regain j

/-- The lock test (R94). -/
def SlideRecord.locks (x : SlideRecord) (j : JudgeOn) (v : Nat) : Bool :=
  x.state != .locked && x.state != .sensorLost && v < j.par.vLockAxle.toNat && j.par.vLockRef.toNat ≤ j.vref

/-- A valid axle in a continuous sample (R93, R94). -/
def SlideRecord.judgeValid (x : SlideRecord) (j : JudgeOn) (v : Nat) : SlideRecord :=
  let c := creepOf j.vref v
  let r := relativeCreep j.par j.vref c
  let x1 := { x with invalid := 0, speed := some v, creep := some c, relCreep := some r }
  if x1.locks j v then x1.enter .locked 0 j.now else x1.judgeCreep j v c r

/-- An invalid axle in a continuous sample (R93, R100). -/
def SlideRecord.judgeInvalid (x : SlideRecord) (j : JudgeOn) : SlideRecord :=
  let x1 :=
    { x with invalid := satAdd 255 x.invalid 1, speed := none, creep := none, relCreep := none }
  if x.state = .sensorLost then { x1 with consecutive := 0 }
  else if j.par.nLost.toNat ≤ x1.invalid then x1.enter .sensorLost 0 j.now
  else x1

/-- An axle judged on a continuous sample. -/
def SlideRecord.judge (x : SlideRecord) (j : JudgeOn) : Option Nat → SlideRecord
  | some v => x.judgeValid j v
  | none => x.judgeInvalid j

/-- An axle's record at a discontinuity: its last speed stored, no creep (R84, R86). -/
def SlideRecord.reseed (x : SlideRecord) (v : Option Nat) : SlideRecord :=
  { x with speed := v, creep := none, relCreep := none }

/-- An axle's record at a stale report of the SPEED source (R100). -/
def SlideRecord.goStale (x : SlideRecord) (now : LinkTime) : SlideRecord :=
  let x1 := { x with speed := none, creep := none, relCreep := none }
  if x.state = .sensorLost then { x1 with consecutive := 0 } else x1.enter .sensorLost 0 now

/-! ### Consequences of entries (R90, R91, R101) -/

/-- a_est lowered by step_down, not below a_min; ADHESION_LOW when it then equals a_min (R90). -/
def State.lowerAdhesion (s : State) : State :=
  let r := s.tbl.adhesion
  let a := max r.aMin.toNat (s.slide.aEst - r.stepDown.toNat)
  State.setFlagIf (a == r.aMin.toNat) .adhesionLow { s with slide := { s.slide with aEst := a } }

/-- The adhesion recovery timer restarted (R91). -/
def State.restartRecovery (s : State) : State :=
  { s with slide := { s.slide with recoveryDeadline := s.after 1000 } }

def State.setAttention (a : Axle) (s : State) : State :=
  { s with slide := { s.slide with attention := s.slide.attention.set a true } }

/-- The consequences of an axle's entry to a state, in the order of R101. -/
def State.entryConsequences (a : Axle) (st : SlideState) (s : State) : State :=
  match st with
  | .sliding => (((s.setAttention a).takeTrigger .slideEntry).lowerAdhesion).restartRecovery
  | .locked =>
    ((((s.setAttention a).setFlag .lockDetected).takeTrigger .lockDetected).lowerAdhesion).restartRecovery
  | .sensorLost => s.setAttention a
  | _ => s

/-- The axles whose state differs between two sets of records, ascending. -/
def changedAxles (old new : PerAxle SlideRecord) : List Axle :=
  Axle.all.filter (fun a => (old.get a).state != (new.get a).state)

/-- The consequences of every entry, in ascending axle number. -/
def State.allConsequences (changed : List Axle) (s : State) : State :=
  changed.foldl (fun t a => t.entryConsequences a (s.slide.axles.get a).state) s

/-- Some axle's slide limit lies below its effort last emitted (R102). -/
def State.asksReemission (s : State) : Bool :=
  Axle.all.any (fun a => s.slideLimit a < s.builder.last.cmd.efforts.get a)

/-- The slide monitor's results are handed over whole (R102, R103, R114). -/
def State.handSlide (changed : List Axle) (s : State) : State := s.handOff changed s.asksReemission

/-! ### The two events (R84, R100) -/

/-- What an axle is judged on in the sample at hand; `last` are the efforts last emitted when it was taken. -/
def State.judgeOn (s : State) (last : PerAxle Nat) (a : Axle) : JudgeOn :=
  { par := s.tbl.adhesion, unlimited := s.tbl.unlimited a, last := last.get a, vref := s.slide.vref
    now := s.time }

/-- A new Vref goes to the capability unit, the control unit and the command builder (R88). -/
def State.handVref (dt : Option Nat) (s : State) : State :=
  let s1 :=
    match dt with
    | some d => s.heatUpdate d
    | none => s
  s1.reportMotion.reportCreeping

/-- The axles are judged on a continuous sample, and the entries take effect. -/
def State.judgeAxles (p : SpeedPayload) (last : PerAxle Nat) (s : State) : State :=
  let old := s.slide.axles
  let new := PerAxle.ofFn (fun a => (old.get a).judge (s.judgeOn last a) (p.speed a))
  let changed := changedAxles old new
  (({ s with slide := { s.slide with axles := new } }).allConsequences changed).handSlide changed

/-- Vref and the last sample time of a sample are stored. -/
def State.withVref (v : Nat) (time : U16) (s : State) : State :=
  { s with slide := { s.slide with vref := v, lastSampleTime := some time } }

/-- An accepted AXLE_SPEED (R84 to R103). -/
def State.takeSpeed (p : SpeedPayload) (s : State) : State :=
  let last := s.builder.last.cmd.efforts
  match s.slide.timeStep p.time with
  | none =>
    let axles := PerAxle.ofFn (fun a => (s.slide.axles.get a).reseed (p.speed a))
    let s1 := { s with slide := { s.slide with axles := axles } }
    ((s1.withVref (reseedVref p) p.time).handVref none).handSlide []
  | some dt =>
    let v := s.slide.nextVref s.tbl.adhesion p dt
    ((s.withVref v p.time).handVref (some dt)).judgeAxles p last

/-- The slide monitor's records at a stale report of the SPEED source (R100). -/
def State.staleAxles (s : State) : PerAxle SlideRecord :=
  PerAxle.ofFn (fun a => (s.slide.axles.get a).goStale s.time)

/-- A stale report of the SPEED role, but for the hand-off (R100). -/
def State.speedStaleRecords (s : State) : State :=
  let changed := changedAxles s.slide.axles s.staleAxles
  State.allConsequences changed { s with slide := { s.slide with axles := s.staleAxles, lastSampleTime := none } }

/-- A stale report of the SPEED role (R100, R102). -/
def State.speedStale (s : State) : State :=
  s.speedStaleRecords.handSlide (changedAxles s.slide.axles s.staleAxles)

/-! ### The recovery step (R91) -/

/-- The adhesion recovery timer expires. -/
def State.recoveryStep (s : State) : State :=
  let r := s.tbl.adhesion
  { s with
    slide :=
      { s.slide with
        aEst := min r.aMax.toNat (s.slide.aEst + r.stepUp.toNat)
        recoveryDeadline := s.slide.recoveryDeadline + 1000 } }

/-! ### CLEAR_ATTENTION and inquiry (R105, R107) -/

/-- The state keeps an axle's attention bit set. -/
def SlideState.holdsAttention : SlideState → Bool
  | .sliding => true
  | .locked => true
  | .sensorLost => true
  | _ => false

/-- The mask after the bits of an axle set have been cleared. -/
def State.clearedAttention (s : State) (axles : U8) : PerAxle Bool :=
  PerAxle.ofFn (fun a =>
    if axles.getLsbD a.bit then (s.slide.axles.get a).state.holdsAttention else s.slide.attention.get a)

def State.slideInfo (s : State) : SlideInfo :=
  { vref := s.slide.vref, lastSampleTime := s.slide.lastSampleTime, aEst := s.slide.aEst
    toRecovery := s.timeLeft s.slide.recoveryDeadline, attention := s.slide.attention, axles := s.slide.axles }

end Sys2Proof.Machine
end

