-- ==== Sys2Proof/Machine/SwitchOps.lean ====
section
/-!
DEFINITION. Staleness (R10) and the table switch (R142): the source table rebuilt (R11), the channel table
adjusted (R42), the slide monitor's limits (R106), the reply positions (R193), and the switch as one event.
-/

namespace Sys2Proof.Machine

/-! ### Stale reports (R10) -/

/-- The roles whose record going STALE sets SOURCE_STALE. -/
def Role.setsSourceStale : Role → Bool
  | .demand => true
  | .speed => true
  | .pressure => true
  | _ => false

/-- The state effects of a stale report at its consumer, but for the slide monitor's hand-off. -/
def State.staleEffects (r : Role) (s : State) : State :=
  match r with
  | .speed => s.speedStaleRecords
  | .inverterA => s.inverterStale .a
  | .inverterB => s.inverterStale .b
  | .pressure => s.pressureStale
  | _ => s

/-- A role is reported stale, with the flag of R10, but for the slide monitor's hand-off. -/
def State.staleRole (r : Role) (s : State) : State :=
  (s.setFlagIf r.setsSourceStale .sourceStale).staleEffects r

/-- The axles whose slide state differs from the command builder's copy: those a hand-off must report (R103). -/
def State.unreported (s : State) : List Axle :=
  Axle.all.filter (fun a => (s.slide.axles.get a).state != s.builder.copy.get a)

/-- A role is reported stale at an expiry (R10): for SPEED the slide monitor's hand-off follows (R100, R102). -/
def State.reportStale (r : Role) (s : State) : State :=
  let s1 := s.staleRole r
  if r = .speed then s1.handSlide s1.unreported else s1

/-- A record at its stale expiry (R10): STALE, without deadline, its sequence and arrival kept. -/
def SourceRecord.expire (x : SourceRecord) : SourceRecord := { x with freshness := .stale, deadline := none }

/-! ### The source table rebuilt (R11) -/

/-- The old record that a new entry keeps: same key and same role. -/
def keptRecord (old : List SourceRecord) (k : Key) (r : Role) : Option SourceRecord :=
  old.find? (fun x => x.key == k && x.role == r)

/-- A kept record under its new entry: if FRESH its deadline is recomputed, and it goes STALE when that is not
after the switch. -/
def SourceRecord.rekey (x : SourceRecord) (i : Nat) (e : ClassEntry) (now : LinkTime) : SourceRecord :=
  let x1 := { x with entry := i }
  match x.freshness, x.lastArrival with
  | .fresh, some t =>
    let d := t + e.staleTimeout
    if isAfter d now then { x1 with deadline := some d } else x1.expire
  | _, _ => x1

/-- The record of a new entry. -/
def rebuiltRecord (old : List SourceRecord) (t : TableSet) (now : LinkTime) (i : Nat) : Option SourceRecord :=
  let e := t.entry i
  if e.roled then
    e.key.map (fun k =>
      match keptRecord old k e.roleOf with
      | some x => x.rekey i e now
      | none => SourceRecord.initial i k e.roleOf)
  else none

/-- The source table of a new classification table. -/
def rebuiltSources (old : List SourceRecord) (t : TableSet) (now : LinkTime) : List SourceRecord :=
  (List.range 32).filterMap (rebuiltRecord old t now)

/-- A role was fresh before the switch and its rebuilt record is not: its record went STALE at the switch, or
started anew in NEVER (R11). -/
def roleLost (old new : List SourceRecord) (r : Role) : Bool :=
  let freshIn (l : List SourceRecord) := l.any (fun x => x.role == r && x.freshness == .fresh)
  freshIn old && !freshIn new

/-- The roles with a consumer of staleness, in the order of the table of section 1.5. -/
def reportedRoles : List Role := [.demand, .speed, .inverterA, .inverterB, .pressure]

/-- The source table is rebuilt, and the roles it loses are reported stale. -/
def State.rebuildSources (t : TableSet) (s : State) : State :=
  let new := rebuiltSources s.sources t s.time
  (reportedRoles.filter (roleLost s.sources new)).foldl (fun x r => x.staleRole r) { s with sources := new }

/-! ### Channels (R42) -/

/-- The maximum of a channel (section 2.5). -/
def TableSet.axleMaximum (t : TableSet) (a : Axle) : Nat := t.unlimited a
def TableSet.truckMaximum (t : TableSet) (k : Truck) : Nat := (t.trucks.get k).pMax.toNat

/-- A manual value above its maximum is set to it. -/
def ChannelEntry.limitTo (e : ChannelEntry) (top : Nat) : ChannelEntry :=
  if e.mode = .manual then { e with manual := min e.manual top } else e

/-- An axle channel under a new set: OFF when its axle is absent in it; one that was absent stays OFF. -/
def adjustAxle (t : TableSet) (a : Axle) (e : ChannelEntry) : ChannelEntry :=
  if t.present a then e.limitTo (t.axleMaximum a) else ⟨.off, 0⟩

def Control.adjust (c : Control) (t : TableSet) : Control :=
  { c with
    axles := PerAxle.ofFn (fun a => adjustAxle t a (c.axles.get a))
    trucks := PerTruck.ofFn (fun k => (c.trucks.get k).limitTo (t.truckMaximum k)) }

/-! ### Slide monitor (R106) -/

/-- A slide limit under a new unlimited value. -/
def SlideRecord.underLimit (x : SlideRecord) (unlimited : Nat) : SlideRecord :=
  { x with limit := if x.state = .adhered then unlimited else min x.limit unlimited }

/-- The slide monitor at a switch: limits and a_est brought within the new set. -/
def State.adjustSlide (s : State) : State :=
  let r := s.tbl.adhesion
  let axles := PerAxle.ofFn (fun a => (s.slide.axles.get a).underLimit (s.tbl.unlimited a))
  let below : Bool := s.slide.aEst < r.aMin.toNat
  let aEst := if below then r.aMin.toNat else min s.slide.aEst r.aMax.toNat
  State.setFlagIf below .adhesionLow { s with slide := { s.slide with axles := axles, aEst := aEst } }

/-! ### Reply positions (R193) -/

/-- The position of a surviving ORDER record, by key. -/
def survivingPosition (old : List Position) (k : Key) : Option Position :=
  old.find? (fun p => !p.departing && p.key == k)

/-- The positions of the rebuilt ORDER records, new ones numbered from `pid` on. -/
def rebuiltPositions (old : List Position) : Nat → List SourceRecord → List Position
  | _, [] => []
  | pid, r :: rs =>
    if r.role == .order then
      match survivingPosition old r.key with
      | some p => { p with entry := r.entry } :: rebuiltPositions old pid rs
      | none =>
        { pid := pid, entry := r.entry, key := r.key, queued := false, held := none, deferred := none,
          discards := 0, departing := false, fresh := true } :: rebuiltPositions old (pid + 1) rs
    else rebuiltPositions old pid rs

/-- A removed record's position becomes departing: its held order is discarded unanswered and counted. -/
def Position.depart (p : Position) : Position :=
  { p with
    departing := true
    held := none
    discards := if p.held.isSome then satAdd 65535 p.discards 1 else p.discards }

/-- The reply positions at a switch. New ones hold their orders while any departing position exists. -/
def State.rebuildPositions (s : State) : State :=
  let old := s.orders.positions
  let kept := rebuiltPositions old s.orders.nextPid s.sources
  let gone := (old.filter (fun p => !kept.any (fun q => q.pid == p.pid))).map Position.depart
  let holding := !gone.isEmpty
  { s with
    orders :=
      { s.orders with
        positions := kept.map (fun p => { p with fresh := p.fresh && holding }) ++ gone
        nextPid := s.orders.nextPid + kept.length } }

/-! ### The switch (R142) -/

/-- The staged set becomes the active set: its items and CRC, the set number one more (R142). -/
def State.activate (t : TableSet) (crc : U16) (s : State) : State :=
  { s with
    tables := { s.tables with active := ⟨t, s.tables.active.number + 1, crc⟩, staging := .idle } }

/-- A table switch as one event: every block takes its effects, TABLE_SWITCH is raised, and the slide monitor
hands over what changed. A switch made at the start of a computation makes no re-emission request (R106). -/
def State.switchTo (t : TableSet) (crc : U16) (atComputation : Bool) (s : State) : State :=
  let s1 := (s.activate t crc).rebuildSources t
  let s2 := { s1 with control := s1.control.adjust t }
  let s3 := (s2.evaluateThermal.adjustSlide.rebuildPositions).runStore
  let s4 := s3.takeTrigger .tableSwitch
  s4.handOff s4.unreported (!atComputation && s4.asksReemission)

/-- A pending switch is made; without one nothing happens. -/
def State.makePending (atComputation : Bool) (s : State) : State :=
  match s.tables.staging with
  | .pendingSwitch t crc => s.switchTo t crc atComputation
  | _ => s

/-- A switch is pending. -/
def State.switchPending (s : State) : Bool :=
  match s.tables.staging with
  | .pendingSwitch _ _ => true
  | _ => false

end Sys2Proof.Machine
end

