-- ==== Sys2Proof/Machine/BlendOps.lean ====
section
/-!
DEFINITION. The blending computation (chapter 4): ceilings, water-filling, air placement, pressures, shortfall,
the computation record, and the computation as one event.
-/

namespace Sys2Proof.Machine

/-! ### Air effort and pressure (R69, R77) -/

/-- The air effort F of a pressure (R69). -/
def TruckEntry.airEffort (e : TruckEntry) (p : Nat) : Nat := (p - e.pOff.toNat) * e.gain.toNat / 100

/-- The quotient rounded up. -/
def ceilDiv (a b : Nat) : Nat := (a + b - 1) / b

/-- The pressure command of an air allocation under a pressure cap (R77). -/
def TruckEntry.pressureFor (e : TruckEntry) (alloc cap : Nat) : Nat :=
  if alloc = 0 then 0 else min cap (e.pOff.toNat + ceilDiv (alloc * 100) e.gain.toNat)

/-- The pressure cap of a truck (R69). A hold pressure above P_max, as a switch to a lower P_max can leave it, is taken
as latched (DESIGN CHOICE, log entry 47). -/
def State.pressureCap (s : State) (t : Truck) : Nat :=
  let r := s.builder.trucks.get t
  match r.action with
  | .hold => r.hold.getD 0
  | .vent => (s.truckEntry t).pOff.toNat
  | _ => (s.truckEntry t).pMax.toNat

/-- The air ceiling of a truck, which an AUTO truck has (R69). -/
def State.airCeiling (s : State) (t : Truck) : Nat := (s.truckEntry t).airEffort (s.pressureCap t)

/-! ### Stages 1 and 2 (R67, R68) -/

/-- The adhesion ceiling (R67). -/
def State.adhesionCeiling (s : State) : Nat := s.tbl.adhesion.axleLoad.toNat * s.slide.aEst / 1000

/-- The ceiling c of an axle: the least of four terms; 0 when absent or OFF (R67). -/
def State.ceiling (s : State) (a : Axle) : Nat :=
  if s.tbl.present a ∧ s.axleMode a ≠ .off then
    min (min s.deratedCurve s.adhesionCeiling)
      (min (s.capability.inverters.get a).limit (s.slideLimit a))
  else 0

/-- The effective ceiling of an AUTO axle (R68); 0 otherwise. -/
def State.effective (s : State) (a : Axle) : Nat :=
  if s.axleMode a = .auto then
    min (s.ceiling a) (s.builder.last.cmd.efforts.get a + s.tbl.blend.eUp.toNat)
  else 0

/-! ### Stage 3 (R70) -/

/-- The manual contribution of an axle. -/
def State.axleManual (s : State) (a : Axle) : Nat :=
  if s.axleMode a = .manual then min (s.control.axles.get a).manual (s.ceiling a) else 0

/-- The manual contribution of a truck. -/
def State.truckManual (s : State) (t : Truck) : Nat :=
  if s.truckMode t = .manual then
    (s.truckEntry t).airEffort (min (s.control.trucks.get t).manual (s.pressureCap t))
  else 0

/-- M: the sum of the manual contributions. -/
def State.manualSum (s : State) : Nat :=
  (PerAxle.ofFn s.axleManual).sum + s.truckManual .a + s.truckManual .b

/-! ### Stage 5: water-filling (R74, R75) -/

/-- One axle's share of the passes: its effective ceiling when it is fixed, and whether it is still in S. -/
def fixedBy (share : Nat) (c : PerAxle Nat) (left : List Axle) : List Axle :=
  left.filter (fun a => c.get a ≤ share)

/-- The allocation of the remainder: the share, and one count more to the lowest-numbered of the axles left. -/
def shareOut (share : Nat) : Nat → List Axle → PerAxle Nat → PerAxle Nat
  | _, [], out => out
  | extra, a :: rest, out =>
    shareOut share (extra - 1) rest (out.set a (if 0 < extra then share + 1 else share))

/-- The sum of some axles' values. -/
def sumOver (c : PerAxle Nat) (l : List Axle) : Nat := (l.map c.get).sum

/-- The values of some axles written from a source. -/
def copyOver (c : PerAxle Nat) (l : List Axle) (out : PerAxle Nat) : PerAxle Nat :=
  l.foldl (fun o a => o.set a (c.get a)) out

/-- The passes over the axles left in S with what is left of T (R74). -/
def waterPasses (c : PerAxle Nat) : Nat → List Axle → Nat → PerAxle Nat → PerAxle Nat
  | 0, _, _, out => out
  | n + 1, left, total, out =>
    if left.isEmpty then out
    else
      let share := total / left.length
      let fixed := fixedBy share c left
      if fixed.isEmpty then shareOut share (total - share * left.length) left out
      else
        waterPasses c n (left.filter (fun a => share < c.get a)) (total - sumOver c fixed)
          (copyOver c fixed out)

/-- Stage 5: an electric target shared among the AUTO axles, whose effective ceilings are given (0 for the
others). At most six passes fix axles, and one more finds none. -/
def waterFill (target : Nat) (c : PerAxle Nat) : PerAxle Nat :=
  waterPasses c 7 (Axle.all.filter (fun a => 0 < c.get a)) (min target c.sum) (PerAxle.const 0)

/-! ### Stage 6: air placement (R76) -/

/-- The air target placed between two AUTO trucks with their ceilings. -/
def placeBoth (target ca cb : Nat) : PerTruck Nat :=
  let offerA := target - target / 2
  let offerB := target / 2
  if ca < offerA then ⟨ca, min (offerB + (offerA - ca)) cb⟩
  else if cb < offerB then ⟨min (offerA + (offerB - cb)) ca, cb⟩
  else ⟨offerA, offerB⟩

/-- Stage 6, by which trucks are AUTO. -/
def placeAir (target : Nat) (autoA autoB : Bool) (ca cb : Nat) : PerTruck Nat :=
  match autoA, autoB with
  | true, true => placeBoth target ca cb
  | true, false => ⟨min target ca, 0⟩
  | false, true => ⟨0, min target cb⟩
  | false, false => ⟨0, 0⟩

/-! ### The computation (R62 to R80) -/

/-- The electric and air allocations of a computation, with its order and its residual. -/
structure Allocation where
  order : BlendOrder
  manual : Nat
  residual : Nat
  efforts : PerAxle Nat
  air : PerTruck Nat
deriving DecidableEq, Repr

def Allocation.electric (x : Allocation) : Nat := x.efforts.sum
def Allocation.airSum (x : Allocation) : Nat := x.air.a + x.air.b

/-- The shortfall (R78); a fallback computation has none, its residual being 0. -/
def Allocation.shortfall (x : Allocation) : Nat := x.residual - x.electric - x.airSum

def State.effectives (s : State) : PerAxle Nat := PerAxle.ofFn s.effective
def State.truckAuto (s : State) (t : Truck) : Bool := s.truckMode t == .auto

/-- Air placed among the AUTO trucks. -/
def State.placeAir (s : State) (target : Nat) : PerTruck Nat :=
  Machine.placeAir target (s.truckAuto .a) (s.truckAuto .b) (s.airCeiling .a) (s.airCeiling .b)

/-- The sum of the air ceilings of the AUTO trucks. -/
def State.airRoom (s : State) : Nat :=
  (if s.truckAuto .a then s.airCeiling .a else 0) + (if s.truckAuto .b then s.airCeiling .b else 0)

/-- ELECTRIC_FIRST (R71). -/
def State.electricFirst (s : State) (m r : Nat) : Allocation :=
  let e := waterFill r s.effectives
  { order := .electricFirst, manual := m, residual := r, efforts := e, air := s.placeAir (r - e.sum) }

/-- AIR_FIRST (R72). -/
def State.airFirst (s : State) (m r : Nat) : Allocation :=
  let air := s.placeAir (min r s.airRoom)
  { order := .airFirst, manual := m, residual := r
    efforts :=
      if s.tbl.blend.elecEmerg = 0 then PerAxle.const 0 else waterFill (r - (air.a + air.b)) s.effectives
    air := air }

/-- The air allocation of a truck in a fallback computation (R73). -/
def State.fallbackAir (s : State) (t : Truck) : Nat :=
  if s.truckAuto t then
    min ((s.truckEntry t).airEffort (s.truckEntry t).fallback.toNat) (s.airCeiling t)
  else 0

/-- FALLBACK (R73): no electric effort; M and R recorded as 0. -/
def State.fallbackAllocation (s : State) : Allocation :=
  { order := .fallback, manual := 0, residual := 0, efforts := PerAxle.const 0
    air := PerTruck.ofFn s.fallbackAir }

/-- Clamped demand and EMERGENCY as the demand record holds them. -/
def State.demandEffort (s : State) : Nat := (s.control.demand.map (fun d => d.clamped)).getD 0
def State.demandEmergency (s : State) : Bool := (s.control.demand.map (fun d => d.emergency)).getD false

/-- Stages 3 to 6 in the order of the part state and the demand (R70 to R73). -/
def State.allocate (s : State) : Allocation :=
  if s.control.partState = .fallback then s.fallbackAllocation
  else
    let m := s.manualSum
    let r := s.demandEffort - m
    if s.demandEmergency then s.airFirst m r else s.electricFirst m r

/-- Stage 7 for one truck (R77). -/
def State.truckPressure (s : State) (x : Allocation) (t : Truck) : Nat :=
  (s.truckEntry t).pressureFor (x.air.get t) (s.pressureCap t)

/-- The allocation table a computation writes (R66). -/
def State.allocTable (s : State) (x : Allocation) : AllocTable :=
  { efforts := x.efforts, air := x.air, pressures := PerTruck.ofFn (s.truckPressure x)
    axleModes := PerAxle.ofFn s.axleMode, truckModes := PerTruck.ofFn s.truckMode }

/-- The short-run count after a computation (R79). -/
def nextShortRun (run : Nat) (short : Bool) : Nat := if short then satAdd 65535 run 1 else 0

/-- The number of the next computation: from its highest value it wraps to 1 (R80). -/
def nextNumber (n : Nat) : Nat := if 4294967295 ≤ n then 1 else n + 1

/-- One axle in the computation record (R80). -/
def State.axleComp (s : State) (x : Allocation) (a : Axle) : AxleComp :=
  let mode := s.axleMode a
  { mode := mode, ceiling := s.ceiling a
    effective := if mode = .auto then some (s.effective a) else none
    manual := if mode = .manual then some (s.axleManual a) else none
    alloc := x.efforts.get a }

/-- One truck in the computation record (R80). -/
def State.truckComp (s : State) (x : Allocation) (t : Truck) : TruckComp :=
  let mode := s.truckMode t
  let p := s.truckPressure x t
  { mode := mode, action := (s.builder.trucks.get t).action, cap := s.pressureCap t
    airCeiling := if mode = .auto then some (s.airCeiling t) else none
    manual := if mode = .manual then some (s.truckManual t) else none
    alloc := x.air.get t, pressure := p, airEffort := (s.truckEntry t).airEffort p }

/-- The computation record (R80). -/
def State.compRecord (s : State) (x : Allocation) (switched : Bool) : CompRecord :=
  { number := nextNumber s.blender.number, time := s.time, partState := s.control.partState
    order := x.order, setNumber := s.tables.active.number, switchMark := switched
    demand := s.demandEffort, emergency := s.demandEmergency, manual := x.manual, residual := x.residual
    vref := s.slide.vref, derate := s.derateFactor, thermal := s.capability.thermal, aEst := s.slide.aEst
    axles := PerAxle.ofFn (s.axleComp x), trucks := PerTruck.ofFn (s.truckComp x)
    electric := x.electric, air := x.airSum, shortfall := x.shortfall, short := 0 < x.shortfall
    shortRun := nextShortRun s.blender.shortRun (0 < x.shortfall) }

/-- The blender after a computation (R66, R80). -/
def State.writeComputation (x : Allocation) (switched : Bool) (s : State) : State :=
  let r := s.compRecord x switched
  { s with
    blender := { alloc := s.allocTable x, record := some r, number := r.number, shortRun := r.shortRun } }

/-- The short-run count has become equal to N_short (R79), as it stands in the active set: a switch that raises N_short
above the count lets SHORTFALL be raised again in the same run (DESIGN CHOICE, log entry 39). -/
def State.shortRunReached (s : State) (r : CompRecord) : Bool :=
  r.short && r.shortRun == s.tbl.blend.nShort.toNat && r.shortRun != s.blender.shortRun

/-- A pending switch is made at this computation (R64). -/
def State.switchesHere (s : State) : Bool :=
  s.control.partState == .active && s.switchPending && s.demandEffort == 0 && !s.demandEmergency

/-- Stages 1 to 7, the record, and the SHORTFALL trigger. -/
def State.computeStages (switched : Bool) (s : State) : State :=
  let x := s.allocate
  let s1 := s.writeComputation x switched
  if s.shortRunReached (s.compRecord x switched) then s1.takeTrigger .shortfall else s1

/-- A blending computation and its emission (R62 to R81). -/
def State.compute (s : State) : State :=
  let switched := s.switchesHere
  let s1 := if switched then s.makePending true else s
  (s1.computeStages switched).emitControl

/-- The shortfall of the computation just made. -/
def State.lastShortfall (s : State) : Option Nat := s.blender.record.map (fun r => r.shortfall)

end Sys2Proof.Machine
end

