-- ==== Sys2Proof/Machine/ControlOps.lean ====
section
/-!
DEFINITION. The control unit's events (chapter 2): an accepted DEMAND and the demand-loss timer.
-/

namespace Sys2Proof.Machine

/-- The clamped demand (R31). -/
def clampDemand (b : BlendRec) (raw : Nat) (emergency : Bool) : Nat :=
  if emergency then b.dEmerg.toNat else min raw b.dMax.toNat

/-- The consecutive-good count after an accepted DEMAND (R31). -/
def nextGood (mark : Mark) (n : Nat) : Nat := if mark = .inSequence then satAdd 255 n 1 else 1

/-- The demand record an accepted DEMAND writes (R31). -/
def State.demandRecord (s : State) (p : DemandPayload) : DemandRecord :=
  let emergency := p.flags.getLsbD 0
  { raw := p.effort.toNat, emergency := emergency
    clamped := clampDemand s.tbl.blend p.effort.toNat emergency, arrival := s.time }

/-- The demand record written (R31), and EMERGENCY_DEMAND raised at the first of a run (R32). -/
def State.writeDemand (mark : Mark) (p : DemandPayload) (s : State) : State :=
  let r := s.demandRecord p
  let s1 :=
    { s with control := { s.control with demand := some r, goodCount := nextGood mark s.control.goodCount } }
  if r.emergency && !s.demandEmergency then s1.takeTrigger .emergencyDemand else s1

/-- The demand-loss timer set. -/
def State.withTimer (t : DemandTimer) (s : State) : State := { s with control := { s.control with timer := t } }

/-- T_dem after now (R34). -/
def State.demandDeadline (s : State) : LinkTime := s.after s.tbl.blend.tDem.toNat

/-- What an accepted DEMAND brings about by the part state, with the shortfall of the computation it makes, if
any (R30, R33). -/
def State.demandWork (s : State) : State × Option Nat :=
  let computed (x : State) : State × Option Nat := (x.compute, x.compute.lastShortfall)
  match s.control.partState with
  | .standby => (s.emitStandby, none)
  | .active => computed s
  | .maintenance => computed s
  | .fallback => if 2 ≤ s.control.goodCount then computed s.enterActive else (s, none)

/-- An accepted DEMAND, taken whole (R33). -/
def State.takeDemand (mark : Mark) (p : DemandPayload) (s : State) : State :=
  let s1 := s.writeDemand mark p
  let w := (s1.withTimer (.waiting s1.demandDeadline)).demandWork
  w.1.takeSample .demand w.2

/-- The first expiry of the demand-loss timer (R35), at a deadline. Its effects come in the order in which R35 lists them,
so DEMAND_LOST is raised before the change to FALLBACK (DESIGN CHOICE, log entry 58). -/
def State.demandLost (d : LinkTime) (s : State) : State :=
  let s1 := ((s.withTimer (.repeating (d + 20))).setFlag .demandLost).takeTrigger .demandLost
  let s2 := { s1 with control := { s1.control with goodCount := 0 } }
  match s2.control.partState with
  | .active => s2.enterFallback
  | .maintenance => s2.enterFallback
  | _ => s2

/-- A repeat expiry (R36), at a deadline. -/
def State.demandRepeat (d : LinkTime) (s : State) : State :=
  let s1 := s.withTimer (.repeating (d + 20))
  if s1.control.partState = .fallback then
    let s2 := s1.compute
    s2.takeSample .repeatExpiry s2.lastShortfall
  else s1.takeSample .repeatExpiry none

/-- Demand is present (R21). -/
def State.demandPresent (s : State) : Bool :=
  s.roleFresh .demand &&
    (match s.control.timer with
      | .repeating _ => false
      | _ => true)

end Sys2Proof.Machine
end

