-- ==== Sys2Proof/Machine/OwnerOrders.lean ====
section
/-!
DEFINITION. What each order does when its owner takes it (chapters 1 to 10): its effect on the part and its
answer. A short order answers with a result and its data; a long order answers through the long-order slot.
-/

namespace Sys2Proof.Machine

/-- What a short order comes to. -/
structure Answer where
  state : State
  res : Result
  data : ReplyData
deriving DecidableEq, Repr

/-- An answer that changes nothing. -/
def State.answers (s : State) (res : Result) (data : ReplyData) : Answer := ⟨s, res, data⟩

/-- The argument byte at an offset, and the two- and four-byte arguments. -/
def argByte (args : Bytes) (i : Nat) : U8 := byteAt args i

/-! ### Link interface and source monitor (R16, R17) -/

/-- Six counts made 0. -/
def PortState.clearCounts (q : PortState) : PortState := { q with counts := ⟨0, 0, 0⟩ }

def State.linkCountsOrder (clear : U8) (s : State) : Answer :=
  let data := ReplyData.linkCounts s.ports.cab.counts s.ports.drive.counts
  if clear = 0 then s.answers .done data
  else ⟨{ s with ports := ⟨s.ports.cab.clearCounts, s.ports.drive.clearCounts⟩ }, .done, data⟩

/-- A record as INQUIRE_SOURCE gives it. -/
def State.sourceInfo (s : State) (x : SourceRecord) : SourceInfo :=
  { role := x.role, freshness := x.freshness, lastSeq := x.lastSeq, lastArrival := x.lastArrival
    timeLeft := (x.deadline.map s.timeLeft).getD 0
    duplicates := x.duplicates, gaps := x.gaps, contentErrors := x.contentErrors }

def State.inquireSourceOrder (entry : U8) (s : State) : Answer :=
  match s.sources.find? (fun x => x.entry == entry.toNat) with
  | none => s.answers .refusedArg .empty
  | some x => s.answers .done (.source (s.sourceInfo x))

/-! ### Control unit (R22 to R27, R39 to R43) -/

/-- An answer that carries the part state as it stands. -/
def State.statesPart (s : State) (res : Result) : Answer := s.answers res (.partState s.control.partState)

def State.engageOrder (s : State) : Answer :=
  match s.control.partState with
  | .standby => if s.demandPresent then (s.enterFromStandby .active).statesPart .done else s.statesPart .noDemand
  | _ => s.statesPart .refusedState

/-- Entry to STANDBY by RELEASE_CONTROL, which makes a pending switch (R141). -/
def State.release (s : State) : State := s.enterStandby.makePending false

def State.releaseControlOrder (s : State) : Answer :=
  match s.control.partState with
  | .active =>
    if s.demandEffort = 0 ∧ s.demandEmergency = false then s.release.statesPart .done
    else s.statesPart .demandNonzero
  | .fallback => s.release.statesPart .done
  | _ => s.statesPart .refusedState

def State.enterMaintOrder (s : State) : Answer :=
  match s.control.partState with
  | .standby =>
    if !(s.roleFresh .speed) || s.slide.vref != 0 then s.statesPart .refusedState
    else if !s.demandPresent then s.statesPart .noDemand
    else (s.enterFromStandby .maintenance).statesPart .done
  | _ => s.statesPart .refusedState

def State.leaveMaintOrder (s : State) : Answer :=
  match s.control.partState with
  | .maintenance => s.leaveMaintenance.enterStandby.statesPart .done
  | _ => s.statesPart .refusedState

/-- A channel's entry of the channel table. -/
def State.channel (s : State) : Channel → ChannelEntry
  | .axle a => s.control.axles.get a
  | .truck t => s.control.trucks.get t

def State.setChannel (c : Channel) (e : ChannelEntry) (s : State) : State :=
  match c with
  | .axle a => s.setAxleChannel a e
  | .truck t => s.setTruckChannel t e

/-- A channel is present (section 2.5). -/
def State.channelPresent (s : State) : Channel → Bool
  | .axle a => s.tbl.present a
  | .truck _ => true

/-- The maximum of a channel (section 2.5). -/
def State.channelMaximum (s : State) : Channel → Nat
  | .axle a => s.tbl.axleMaximum a
  | .truck t => s.tbl.truckMaximum t

/-- A SET_MODE that names the calibrating channel aborts the calibration (R40). -/
def State.abortFor (c : Channel) (s : State) : State :=
  match s.builder.calibration with
  | some k => if c = .truck k.truck then s.abortCalibration false else s
  | none => s

/-- What SET_MODE carries of a channel. -/
def State.modeData (s : State) (c : Channel) : ReplyData :=
  .channelMode c.number (s.channel c).mode (s.channel c).manual

/-- SET_MODE judged on a channel with a mode byte (R39). -/
def State.judgeMode (c : Channel) (mode : U8) (s : State) : Answer :=
  match Mode.ofByte mode with
  | none => s.answers .refusedArg (s.modeData c)
  | some .calibrate => s.answers .refusedArg (s.modeData c)
  | some m =>
    if !s.channelPresent c && m != .off then s.answers .refusedArg (s.modeData c)
    else if m = .manual ∧ s.control.partState ≠ .maintenance then s.answers .refusedState (s.modeData c)
    else if m = (s.channel c).mode then s.answers .done (s.modeData c)
    else
      let s1 := s.setChannel c ⟨m, 0⟩
      s1.answers .done (s1.modeData c)

/-- SET_MODE at the control unit (R39, R40). The refusal of a channel number outside 1 to 8 carries no data (DESIGN CHOICE,
log entry 63). -/
def State.setModeOrder (channel mode : U8) (s : State) : Answer :=
  match Channel.ofByte channel with
  | none => s.answers .refusedArg .empty
  | some c => (s.abortFor c).judgeMode c mode

def State.setValueOrder (channel : U8) (value : U16) (s : State) : Answer :=
  match Channel.ofByte channel with
  | none => s.answers .refusedArg .empty
  | some c =>
    let e := s.channel c
    if e.mode = .manual then
      let v := min value.toNat (s.channelMaximum c)
      ⟨s.setChannel c { e with manual := v }, .done, .manualValue v⟩
    else s.answers .valueHeld (.manualValue e.manual)

/-- The modes a channel supports (R43). -/
def State.channelModes (s : State) : Channel → List Mode
  | .axle a => if s.tbl.present a then [.off, .auto, .manual] else [.off]
  | .truck _ => [.off, .auto, .manual, .calibrate]

/-- The lag of a truck channel. -/
def State.channelLag (s : State) : Channel → Option Nat
  | .axle _ => none
  | .truck t => some (s.truckEntry t).lag.toNat

def State.channelInfo (s : State) (c : Channel) : ChannelInfo :=
  { channel := c.number, present := s.channelPresent c, modes := s.channelModes c, minimum := 0
    maximum := s.channelMaximum c, mode := (s.channel c).mode, manual := (s.channel c).manual
    lag := s.channelLag c }

def State.inquireChannelOrder (channel : U8) (s : State) : Answer :=
  match Channel.ofByte channel with
  | none => s.answers .refusedArg .empty
  | some c => s.answers .done (.channel (s.channelInfo c))

/-! ### Capability unit, blender, slide monitor, command builder (R60, R82, R105, R107, R130) -/

def State.inquireCapabilityOrder (s : State) : Answer := s.answers .done (.capability s.capabilityInfo)

def State.inquireBlendOrder (s : State) : Answer :=
  match s.blender.record with
  | none => s.answers .notYet .empty
  | some r => s.answers .done (.blend r s.blender.alloc)

/-- CLEAR_ATTENTION (R105): bits 6 and 7 of the axle set are refused. -/
def State.clearAttentionOrder (axles : U8) (s : State) : Answer :=
  if axles.getLsbD 6 || axles.getLsbD 7 then s.answers .refusedArg .empty
  else
    let m := s.clearedAttention axles
    ⟨{ s with slide := { s.slide with attention := m } }, .done, .attention m⟩

def State.inquireSlideOrder (s : State) : Answer := s.answers .done (.slide s.slideInfo)

def State.inquireCommandOrder (s : State) : Answer := s.answers .done (.command s.commandInfo)

/-- A CALIBRATE is not taken in the part's present state (R124). -/
def State.calibrationRefused (t : Truck) (s : State) : Bool :=
  s.control.partState != .maintenance || s.slide.vref != 0 || s.truckMode t != .manual
    || (s.builder.trucks.get t).action != .normal || !(s.roleFresh .pressure)

/-- CALIBRATE, in the slot (R124). -/
def State.calibrateOrder (channel : U8) (pid : Nat) (tag : U8) (s : State) : State :=
  match truckOfByte channel with
  | none => s.answerLong .refusedArg .empty
  | some t => if s.calibrationRefused t then s.answerLong .refusedState .empty else s.startCalibration t pid tag

/-! ### Table store (R134 to R149) -/

def State.withStaging (st : Staging) (s : State) : State := { s with tables := { s.tables with staging := st } }

/-- A staged set with its items written and its checks run enters AWAIT_DECISION (R137). -/
def State.checkStaged (t : TableSet) (s : State) : State :=
  (s.withStaging (.awaitDecision t t.crc t.check)).setFlagIf t.check.isSome .checkFailed

/-- The section, start, count and last flag of a LOAD are admitted (R134). -/
def loadArgsOk (x : Sect) (start count last : U8) : Bool :=
  start.toNat < x.items && 1 ≤ count.toNat && count.toNat ≤ x.mostPerLoad && last.toNat ≤ 1

/-- The items a LOAD reaches. -/
def loadReach (x : Sect) (start count : U8) : List Nat := x.reach start.toNat count.toNat

/-- A LOAD's items written into a staged set, and the checks run with its last flag (R136, R137). -/
def State.loadInto (t : TableSet) (x : Sect) (start count last : U8) (items : Bytes) (s : State) : Answer :=
  let t1 := TableSet.writeItems x (loadReach x start count) items t
  if last = 0 then
    ⟨s.withStaging (.loading t1), .done, .nextItem x.code (x.after start.toNat count.toNat)⟩
  else ⟨s.checkStaged t1, .done, .checked t1.check t1.crc⟩

/-- LOAD (R134, R135). -/
def State.loadOrder (sect start count last : U8) (items : Bytes) (s : State) : Answer :=
  let busy := s.answers .refusedBusy .empty
  let judged (t : TableSet) (s1 : State) : Answer :=
    match Sect.ofCode sect with
    | none => s.answers .refusedArg .empty
    | some x =>
      if !(loadArgsOk x start count last) then s.answers .refusedArg .empty
      else if items.length ≠ x.sizeOf (loadReach x start count) then s.answers .refusedArg .empty
      else s1.loadInto t x start count last items
  match s.tables.staging with
  | .awaitDecision _ _ _ => busy
  | .pendingSwitch _ _ => busy
  | .idle => judged s.tbl (s.dropFlag .checkFailed)
  | .loading t => judged t s

/-- The identity of the active set. -/
def State.activeIdentity (s : State) : U16 × U16 := (s.tables.active.number, s.tables.active.crc)

/-- ACCEPT (R139). -/
def State.acceptOrder (s : State) : Answer :=
  match s.tables.staging with
  | .awaitDecision _ _ (some f) => s.answers .checkFailed (.checkResult (some f))
  | .awaitDecision t crc none =>
    if s.control.partState = .standby ∨ s.control.partState = .maintenance then
      let s1 := s.switchTo t crc false
      s1.answers .done (.accepted s1.tables.staging.state s1.tables.active.number s1.tables.active.crc)
    else
      let s1 := s.withStaging (.pendingSwitch t crc)
      s1.answers .done (.pendingAccept .pendingSwitch)
  | _ => s.answers .refusedState .empty

/-- REJECT (R140). -/
def State.rejectOrder (s : State) : Answer :=
  match s.tables.staging with
  | .awaitDecision _ _ _ => (s.withStaging .idle).answers .done .empty
  | _ => s.answers .refusedState .empty

/-- ABANDON (R140). -/
def State.abandonOrder (s : State) : Answer :=
  match s.tables.staging with
  | .pendingSwitch _ _ => (s.withStaging .idle).answers .done .empty
  | _ => s.answers .refusedState .empty

/-- The set a selector names, with its identity: 0 active, 1 staged (R144). -/
def State.selectedSet (s : State) (selector : U8) : Option (TableSet × SetIdentity) :=
  if selector = 0 then some (s.tbl, .active s.tables.active.number s.tables.active.crc)
  else
    match s.tables.staging with
    | .idle => none
    | .loading t => some (t, .absent)
    | .awaitDecision t crc r => some (t, .staged crc r)
    | .pendingSwitch t crc => some (t, .staged crc none)

/-- READ_TABLE (R144). -/
def State.readTableOrder (selector sect start count : U8) (s : State) : Answer :=
  if 2 ≤ selector.toNat then s.answers .refusedArg .empty
  else
    match s.selectedSet selector, Sect.ofCode sect with
    | none, _ => s.answers .refusedState .empty
    | some _, none => s.answers .refusedArg .empty
    | some (t, ident), some x =>
      if !(loadArgsOk x start count 0) then s.answers .refusedArg .empty
      else s.answers .done (.items ident ((loadReach x start count).flatMap (t.itemBytes x)))

/-- The slot CRC (R145): over the stored set number and the sections. -/
def slotCrc (number : U16) (t : TableSet) : U16 := crc16 (be16 number ++ t.bytes)

/-- A user slot. -/
def UserSlots.get (u : UserSlots) (i : Nat) : Slot :=
  match i with
  | 1 => u.s1
  | 2 => u.s2
  | _ => u.s3

def UserSlots.set (u : UserSlots) (i : Nat) (x : Slot) : UserSlots :=
  match i with
  | 1 => { u with s1 := x }
  | 2 => { u with s2 := x }
  | _ => { u with s3 := x }

/-- The contents of a slot that is valid (R145). -/
def Slot.contents : Slot → Option (U16 × TableSet)
  | .written n t crc => if crc = slotCrc n t then some (n, t) else none
  | _ => none

/-- The contents of a valid slot by number; slot 0 is the factory set with set number 0. -/
def UserSlots.contents (u : UserSlots) (i : Nat) : Option (U16 × TableSet) :=
  if i = 0 then some (0, factorySet) else (u.get i).contents

/-- A slot's condition (R146). -/
def UserSlots.info (u : UserSlots) (i : Nat) : SlotInfo :=
  match u.contents i with
  | some (n, t) => .valid n t.crc
  | none => if u.get i = .empty then .empty else .corrupted

/-- The profile slot that a save writes: none for a selection write, SAVE_PROFILE 0 (R147). -/
def SaveRecord.writes (r : SaveRecord) : Option (Fin 4) := if r.slot = 0 then none else some r.slot

/-- LIST_PROFILES (R146). -/
def State.listProfilesOrder (s : State) : Answer :=
  s.answers .done
    (.profiles ((List.range 4).map s.tables.slots.info) s.tables.selection (s.tables.save.bind SaveRecord.writes))

/-- LOAD_PROFILE (R149). -/
def State.loadProfileOrder (slot : U8) (s : State) : Answer :=
  match slotOfByte slot with
  | none => s.answers .refusedArg .empty
  | some i =>
    if s.tables.staging ≠ .idle then s.answers .refusedBusy .empty
    else
      match s.tables.slots.contents i.val with
      | none => s.answers .refusedArg .empty
      | some (n, t) => ⟨(s.dropFlag .checkFailed).checkStaged t, .done, .checkedProfile t.check t.crc n⟩

/-- SAVE_PROFILE, in the slot (R147): the snapshot is taken and the slot marked WRITING. -/
def State.saveProfileOrder (slot : U8) (pid : Nat) (tag : U8) (s : State) : State :=
  match slotOfByte slot with
  | none => s.answerLong .refusedArg .empty
  | some i =>
    let slots := if i = 0 then s.tables.slots else s.tables.slots.set i.val .writing
    { s with
      tables :=
        { s.tables with slots := slots, save := some ⟨i, s.tables.active, pid, tag⟩ } }

/-- A save ends (R147, R148). -/
def State.saveEnds (r : SaveRecord) (agrees : Bool) (s : State) : State :=
  let s1 := { s with tables := { s.tables with save := none } }
  if r.slot = 0 then
    { s1 with tables := { s1.tables with selection := 0 } }.answerLong .done (.slotNumber 0)
  else if agrees then
    let a := r.snapshot
    let x := Slot.written a.number a.tables (slotCrc a.number a.tables)
    { s1 with
      tables := { s1.tables with slots := s1.tables.slots.set r.slot.val x, selection := r.slot } }.answerLong
      .done (.slotSaved r.slot a.number a.tables.crc)
  else
    let s2 := { s1 with tables := { s1.tables with slots := s1.tables.slots.set r.slot.val .writing } }
    (s2.setFlagIf (s2.tables.selection == r.slot) .profileFault).answerLong .dataCheck
      (.slotNumber r.slot.val)

/-! ### Capture unit (R157, R161, R167, R168) -/

def State.withRecorder (r : RecorderState) (s : State) : State :=
  { s with capture := { s.capture with recorder := r } }

def State.armOrder (s : State) : Answer :=
  match s.capture.recorder with
  | .capturing => s.answers .refusedState (.recorderState .capturing)
  | _ => (s.withRecorder .armed).answers .done (.recorderState .armed)

def State.disarmOrder (s : State) : Answer :=
  match s.capture.recorder with
  | .capturing => s.answers .captureActive (.recorderState .capturing)
  | _ => (s.withRecorder .disarmed).answers .done (.recorderState .disarmed)

def State.triggerOrder (s : State) : Answer :=
  match s.capture.recorder with
  | .capturing => s.answers .busy .empty
  | _ => (s.takeTrigger .manual).answers .done (.triggerOutcome s.triggerOutcome)

/-- READ_RING (R167): the offset counts back from the newest sample, modulo the fill. -/
def State.readRingOrder (offset : U16) (count : U8) (s : State) : Answer :=
  if count ≠ 1 then s.answers .refusedArg .empty
  else
    let fill := s.capture.ring.length
    let back := offset.toNat % fill
    match s.capture.ring[fill - 1 - back]? with
    | none => s.answers .notYet .empty
    | some x => s.answers .done (.ringSample fill back x)

def CaptureRecord.info (r : CaptureRecord) : CaptureInfo :=
  { flushing := r.phase != .collecting, incident := r.incident, kind := r.kind, cls := r.cls, pre := r.pre
    post := r.post, countdown := r.countdown, cursor := r.cursor, nextPage := r.nextPage, lost := r.lost
    extraCount := r.extraCount }

def Capture.info (c : Capture) : RecorderInfo :=
  { recorder := c.recorder, fill := c.ring.length, newest := c.ring.getLast?.map (fun x => x.index)
    counter := c.counter, missedDisarmed := c.missedDisarmed, missedFull := c.missedFull
    capture := c.record.map CaptureRecord.info }

/-- INQUIRE_RECORDER (R168). -/
def State.inquireRecorderOrder (clear : U8) (s : State) : Answer :=
  let data := ReplyData.recorder s.capture.info
  if clear = 0 then s.answers .done data
  else ⟨{ s with capture := { s.capture with missedDisarmed := 0, missedFull := 0 } }, .done, data⟩

/-! ### Record store (R182 to R186) -/

/-- A continue flag of 0 or 1. -/
def contFlag (c : U8) : Option Bool :=
  match c.toNat with
  | 0 => some false
  | 1 => some true
  | _ => none

def State.withJob (j : StoreJob) (s : State) : State := s.withStore { s.store with job := some j }

def State.scanning (s : State) : Bool := s.store.scan == .scanning

/-- READ_RECORD, in the slot (R182). A continue flag other than 0 or 1 is refused at once, and the cursor is cleared,
as it is after every refusal with or without the flag (DEDUCED, log entry 42). -/
def State.readRecordOrder (incident : U32) (item : U16) (cont : U8) (s : State) : State :=
  match contFlag cont with
  | none => (s.withStore { s.store with cursor := none }).answerLong .refusedArg .empty
  | some keep =>
    if s.scanning then s.withJob (.scanRead incident.toNat item.toNat keep)
    else (s.judgeReadRecord incident.toNat item.toNat keep).runStore

/-- READ_NEXT, in the slot (R183). -/
def State.readNextOrder (s : State) : State :=
  if s.scanning then s.withJob .scanNext else s.judgeReadNext.runStore

/-- LIST_RECORDS, in the slot (R184). -/
def State.listRecordsOrder (start : U8) (s : State) : State :=
  if s.scanning then s.withJob (.scanList start.toNat) else s.judgeListRecords start.toNat

/-- CLEAR_STORE, in the slot (R180, R185). -/
def State.clearStoreOrder (s : State) : State :=
  if s.scanning then s.withJob .scanClear else s.judgeClear.runStore

/-- PIN_RECORD (R184). -/
def State.pinRecordOrder (incident : U32) (s : State) : Answer :=
  let n := incident.toNat
  let pins := s.store.pins
  if s.scanning then s.answers .busy .empty
  else if (s.store.entry n).isNone then s.answers .recordGone (.pins false pins.length)
  else if pins.contains n then s.answers .done (.pins true pins.length)
  else if Config.pinListSize ≤ pins.length then s.answers .refusedArg (.pins false pins.length)
  else
    ⟨(s.withStore { s.store with pins := pins ++ [n] }).runStore, .done, .pins true (pins.length + 1)⟩

/-- UNPIN_RECORD (R184). -/
def State.unpinRecordOrder (incident : U32) (s : State) : Answer :=
  let n := incident.toNat
  let pins := s.store.pins
  if s.scanning then s.answers .busy .empty
  else if (s.store.entry n).isNone then s.answers .recordGone (.pins false pins.length)
  else if !pins.contains n then s.answers .done (.pins false pins.length)
  else
    let left := pins.filter (· != n)
    ⟨(s.withStore { s.store with pins := left }).runStore, .done, .pins false left.length⟩

def State.inquireStoreOrder (s : State) : Answer := s.answers .done (.storeInfo s.store.info)

/-! ### Order handler (R194, R195, R198) -/

/-- The part's identity and counts (R194). A departing position is given with the entry index that its record had (DESIGN
CHOICE, log entry 65). -/
def State.partInfo (s : State) : PartInfo :=
  { vendor := 0x0E2A, part := 0x0B06, revision := 1
    setNumber := s.tables.active.number, setCrc := s.tables.active.crc, selection := s.tables.selection
    staging := s.tables.staging.state, restarts := s.orders.restarts
    discards := s.orders.positions.map (fun p => (p.entry, p.discards)) }

def State.inquireOrder (s : State) : Answer := s.answers .done (.partInfo s.partInfo)

/-- Some record of one of some roles is STALE. -/
def State.someStale (s : State) (roles : List Role) : Bool :=
  s.sources.any (fun x => roles.contains x.role && x.freshness == .stale)

/-- The selected start-up slot is not valid, or is a user slot that fails a consistency check (R148). -/
def Tables.selectionFaulty (t : Tables) : Bool :=
  match t.slots.contents t.selection.val with
  | none => true
  | some (_, x) => t.selection != 0 && x.check.isSome

/-- Staging waits for a decision on a failing result (R137). -/
def Staging.failing : Staging → Bool
  | .awaitDecision _ _ r => r.isSome
  | _ => false

/-- A present axle's fault is set and its source FRESH (R49). -/
def State.faultStands (s : State) : Bool :=
  Axle.all.any (fun a =>
    s.tbl.present a && (s.capability.inverters.get a).fault && s.roleFresh (inverterRole a.inverter))

/-- The condition under which CLEAR_FAULTS leaves a flag set (section 10.4). -/
def State.condition (s : State) : Flag → Bool
  | .demandLost =>
    (match s.control.timer with
      | .repeating _ => true
      | _ => false)
  | .sourceStale => s.someStale [.demand, .speed, .pressure]
  | .checkFailed => s.tables.staging.failing
  | .profileFault => s.tables.selectionFaulty
  | .lockDetected => Axle.all.any (fun a => (s.slide.axles.get a).state == .locked)
  | .ventExpired =>
    s.builder.trucks.a.action == .ventExpired || s.builder.trucks.b.action == .ventExpired
  | .adhesionLow => s.slide.aEst == s.tbl.adhesion.aMin.toNat
  | .inverterStale => s.someStale [.inverterA, .inverterB]
  | .inverterFault => s.faultStands
  | .airResponse => s.builder.supervision.a.state == .late || s.builder.supervision.b.state == .late
  | .thermalDerate => s.capability.thermal != .normal
  | .thermalTrip => s.capability.thermal == .trip
  | .storeFull => !s.storeHasRoom
  | _ => false

/-- The fault register after CLEAR_FAULTS of a class set (R195). -/
def State.clearedFaults (s : State) (classes : U8) : BitVec 17 :=
  (Flag.all.filter (fun f => classes.getLsbD f.cls.bit && !s.condition f)).foldl clearIn s.orders.faults

/-- CLEAR_FAULTS (R195): bits 6 and 7 of the class set are refused. -/
def State.clearFaultsOrder (classes : U8) (s : State) : Answer :=
  if classes.getLsbD 6 || classes.getLsbD 7 then s.answers .refusedArg .empty
  else
    let r := s.clearedFaults classes
    ⟨{ s with orders := { s.orders with faults := r } }, .done, .flags r⟩

/-- RESTART (R198): from now on no order is taken, and held orders are discarded unanswered. -/
def State.restartOrder (s : State) : Answer :=
  ⟨{ s with
      orders :=
        { s.orders with
          restarting := true, positions := s.orders.positions.map (fun p => { p with held := none }) } },
    .done, .empty⟩

end Sys2Proof.Machine
end

