-- ==== Sys2Proof/Machine/OrderHandler.lean ====
section
/-!
DEFINITION. The order handler (sections 10.1, 10.2): an order judged and passed to its owner, the reply positions,
and what becomes possible when a position clears.
-/

namespace Sys2Proof.Machine

/-- A short order at its owner, by name, with its argument bytes (R189). Long orders do not come here. -/
def State.shortOrder (n : OrderName) (args : Bytes) (s : State) : Answer :=
  match n with
  | .linkCounts => s.linkCountsOrder (argByte args 0)
  | .inquireSource => s.inquireSourceOrder (argByte args 0)
  | .engage => s.engageOrder
  | .releaseControl => s.releaseControlOrder
  | .enterMaint => s.enterMaintOrder
  | .leaveMaint => s.leaveMaintOrder
  | .setMode => s.setModeOrder (argByte args 0) (argByte args 1)
  | .setValue => s.setValueOrder (argByte args 0) (u16At args 1)
  | .inquireChannel => s.inquireChannelOrder (argByte args 0)
  | .inquireCapability => s.inquireCapabilityOrder
  | .inquireBlend => s.inquireBlendOrder
  | .clearAttention => s.clearAttentionOrder (argByte args 0)
  | .inquireSlide => s.inquireSlideOrder
  | .inquireCommand => s.inquireCommandOrder
  | .load =>
    s.loadOrder (argByte args 0) (argByte args 1) (argByte args 2) (argByte args 3) (args.drop 4)
  | .accept => s.acceptOrder
  | .reject => s.rejectOrder
  | .abandon => s.abandonOrder
  | .readTable => s.readTableOrder (argByte args 0) (argByte args 1) (argByte args 2) (argByte args 3)
  | .listProfiles => s.listProfilesOrder
  | .loadProfile => s.loadProfileOrder (argByte args 0)
  | .arm => s.armOrder
  | .disarm => s.disarmOrder
  | .trigger => s.triggerOrder
  | .readRing => s.readRingOrder (u16At args 0) (argByte args 2)
  | .inquireRecorder => s.inquireRecorderOrder (argByte args 0)
  | .pinRecord => s.pinRecordOrder (u32At args 0)
  | .unpinRecord => s.unpinRecordOrder (u32At args 0)
  | .inquireStore => s.inquireStoreOrder
  | .inquire => s.inquireOrder
  | .clearFaults => s.clearFaultsOrder (argByte args 0)
  | .restart => s.restartOrder
  | .calibrate => s.answers .unknownOrder .empty
  | .saveProfile => s.answers .unknownOrder .empty
  | .readRecord => s.answers .unknownOrder .empty
  | .readNext => s.answers .unknownOrder .empty
  | .listRecords => s.answers .unknownOrder .empty
  | .clearStore => s.answers .unknownOrder .empty

/-- A long order at its owner, in the slot. Short orders do not come here. -/
def State.longOrder (n : OrderName) (args : Bytes) (pid : Nat) (tag : U8) (s : State) : State :=
  match n with
  | .calibrate => s.calibrateOrder (argByte args 0) pid tag
  | .saveProfile => s.saveProfileOrder (argByte args 0) pid tag
  | .readRecord => s.readRecordOrder (u32At args 0) (u16At args 4) (argByte args 6)
  | .readNext => s.readNextOrder
  | .listRecords => s.listRecordsOrder (argByte args 0)
  | .clearStore => s.clearStoreOrder
  | _ => s

/-- A short order answered: changes of status are reported (log entry 7), then the reply is handed over. When the order
has aborted its own source's CALIBRATE, that reply stands first, and this one is deferred behind it while it still waits
(DESIGN CHOICE, log entry 45). -/
def State.answerShort (pid : Nat) (tag : U8) (n : OrderName) (args : Bytes) (s : State) : State :=
  let a := s.shortOrder n args
  a.state.report.handOver pid ⟨tag, n.code, a.res, a.data⟩

/-- A long order asks for the slot (R192). -/
def State.askSlot (pid : Nat) (tag : U8) (n : OrderName) (args : Bytes) (s : State) : State :=
  match s.orders.slot with
  | some _ => s.handOver pid ⟨tag, n.code, .refusedBusy, .empty⟩
  | none => State.longOrder n args pid tag { s with orders := { s.orders with slot := some ⟨n, tag, pid⟩ } }

/-- The order handler takes an order (R188): the name, the argument length, the slot, the owner. -/
def State.takeOrder (pid : Nat) (tag code : U8) (args : Bytes) (s : State) : State :=
  match OrderName.ofCode code with
  | none => s.handOver pid ⟨tag, code, .unknownOrder, .orderCode code⟩
  | some n =>
    if args.length < n.argBytes then s.handOver pid ⟨tag, code, .refusedArg, .empty⟩
    else if n.isLong then s.askSlot pid tag n args
    else s.answerShort pid tag n args

/-! ### Reply positions (R190, R193) -/

/-- Some departing position exists. -/
def State.anyDeparting (s : State) : Bool := s.orders.positions.any (fun p => p.departing)

/-- A position whose orders are held: QUEUED, or begun while a departing one still exists. -/
def State.holdsOrders (s : State) (p : Position) : Bool := p.queued || (p.fresh && s.anyDeparting)

/-- An order held, or discarded and counted when one is held already. -/
def Position.hold (h : HeldOrder) (p : Position) : Position :=
  match p.held with
  | none => { p with held := some h }
  | some _ => { p with discards := satAdd 65535 p.discards 1 }

/-- The position of the ORDER record of a classification entry. -/
def State.entryPosition (s : State) (entry : Nat) : Option Position :=
  s.orders.positions.find? (fun p => !p.departing && p.entry == entry)

/-- An accepted ORDER reaches the order handler (R190); after a RESTART it is discarded (R198). -/
def State.orderArrives (entry : Nat) (tag code : U8) (args : Bytes) (s : State) : State :=
  if s.orders.restarting then s
  else
    match s.entryPosition entry with
    | none => s
    | some p =>
      if s.holdsOrders p then s.mapPosition p.pid (fun p => p.hold ⟨tag, code, args⟩)
      else s.takeOrder p.pid tag code args

/-- A CLEAR position with a deferred reply. -/
def Position.canPlace (p : Position) : Bool := !p.queued && p.deferred.isSome

/-- A position whose held order can be taken. -/
def State.canTake (s : State) (p : Position) : Bool := p.held.isSome && !s.holdsOrders p

/-- A departing position that has nothing more to send. -/
def State.canEnd (s : State) (p : Position) : Bool :=
  p.departing && !p.queued && p.deferred.isNone && !(s.orders.slot.any (fun l => l.pid == p.pid))

/-- A deferred reply is placed in the queue. -/
def State.placeDeferred (p : Position) (s : State) : State :=
  match p.deferred with
  | none => s
  | some r => (s.mapPosition p.pid (fun x => { x with deferred := none })).handOver p.pid r

/-- A held order is taken. -/
def State.takeHeld (p : Position) (s : State) : State :=
  match p.held with
  | none => s
  | some h => (s.mapPosition p.pid (fun x => { x with held := none })).takeOrder p.pid h.tag h.code h.args

/-- A departing position ends; after the last, new positions hold orders no longer. -/
def State.endDeparting (p : Position) (s : State) : State :=
  let left := s.orders.positions.filter (fun x => x.pid != p.pid)
  let none_left := !(left.any (fun x => x.departing))
  { s with
    orders :=
      { s.orders with positions := if none_left then left.map (fun x => { x with fresh := false }) else left } }

/-- One thing that has become possible at the reply positions: a deferred reply first, then a held order, then
the end of a departing position. -/
def State.settleStep (s : State) : Option State :=
  match s.orders.positions.find? Position.canPlace with
  | some p => some (s.placeDeferred p)
  | none =>
    match s.orders.positions.find? s.canTake with
    | some p => some (s.takeHeld p)
    | none => (s.orders.positions.find? s.canEnd).map (fun p => s.endDeparting p)

/-- Everything that has become possible at the reply positions. -/
def State.settleLoop : Nat → State → State
  | 0, s => s
  | n + 1, s =>
    match s.settleStep with
    | none => s
    | some t => State.settleLoop n t.report

/-- The end of every event: changes of status are reported, and the reply positions settle. -/
def State.finish (s : State) : State := State.settleLoop 64 s.report

/-- An event of a part that is running; before the start-up load and without supply nothing arrives (R2). -/
def State.whenRunning (f : State → State) (s : State) : State := if s.phase = .running then (f s).finish else s

end Sys2Proof.Machine
end

