-- ==== Sys2Proof/Machine/Classifier.lean ====
section
/-!
DEFINITION. The classifier and the source monitor (chapter 1): received telegrams routed by their entries, judged
on content and sequence, forwarded, and delivered to the consumers of their roles.
-/

namespace Sys2Proof.Machine

/-! ### Continuity (R9) -/

/-- The sequence step of a telegram against the record. -/
def SourceRecord.seqStep (x : SourceRecord) (seq : U8) : Nat := (seq - x.lastSeq.getD 0).toNat

/-- The continuity mark of a telegram; none is a duplicate. -/
def SourceRecord.mark (x : SourceRecord) (seq : U8) : Option Mark :=
  match x.freshness with
  | .fresh =>
    if x.seqStep seq = 0 then none else if x.seqStep seq = 1 then some .inSequence else some .gap
  | _ => some .resumed

/-- A record after an acceptance: FRESH, with sequence, arrival and deadline, and the gap counted. -/
def SourceRecord.accept (x : SourceRecord) (seq : U8) (m : Mark) (now : LinkTime) (timeout : LinkTime) :
    SourceRecord :=
  { x with
    freshness := .fresh, lastSeq := some seq, lastArrival := some now, deadline := some (now + timeout)
    gaps := if m = .gap then satAdd 65535 x.gaps (x.seqStep seq - 1) else x.gaps }

/-- Change the record of an entry. -/
def State.mapSource (entry : Nat) (f : SourceRecord → SourceRecord) (s : State) : State :=
  { s with sources := s.sources.map (fun x => if x.entry == entry then f x else x) }

/-- An accepted telegram at the consumer of its role (section 1.5). -/
def State.deliver (r : Role) (entry : Nat) (m : Mark) (t : Telegram) (s : State) : State :=
  match r with
  | .none => s
  | .demand => s.takeDemand m (DemandPayload.ofBytes t.payload)
  | .speed => s.takeSpeed (SpeedPayload.ofBytes t.payload)
  | .inverterA => s.takeEffortReport .a (EffortPayload.ofBytes t.payload)
  | .inverterB => s.takeEffortReport .b (EffortPayload.ofBytes t.payload)
  | .pressure => s.takePressure m (PressurePayload.ofBytes t.payload)
  | .order => s.orderArrives entry (byteAt t.payload 0) (byteAt t.payload 1) (t.payload.drop 2)

/-- The source monitor's judgement of a telegram under an entry (R8, R9): a content error, a duplicate, or an
acceptance, which is forwarded where a port is given and then delivered. -/
def State.sourceArrival (entry : Nat) (t : Telegram) (across : Option Port) (s : State) : State :=
  match s.sources.find? (fun x => x.entry == entry) with
  | none => s
  | some x =>
    if !contentOk x.role t then
      s.mapSource entry (fun x => { x with contentErrors := satAdd 65535 x.contentErrors 1 })
    else
      match x.mark t.seq with
      | none => s.mapSource entry (fun x => { x with duplicates := satAdd 65535 x.duplicates 1 })
      | some m =>
        let s1 :=
          s.mapSource entry (fun x => x.accept t.seq m s.time (s.tbl.entry entry).staleTimeout)
        let s2 :=
          match across with
          | some p => s1.forward p t
          | none => s1
        s2.deliver x.role entry m t

/-! ### Classification (R5 to R7) -/

/-- An entry has the key of a telegram. -/
def ClassEntry.hasKey (e : ClassEntry) (p : Port) (t : Telegram) : Bool :=
  e.nonEmpty && e.port == portByte p && e.source == t.source && e.kind == t.kind

/-- The entry a telegram matches. -/
def TableSet.matching (tbl : TableSet) (p : Port) (t : Telegram) : Option Nat :=
  (List.range 32).find? (fun i => (tbl.entry i).hasKey p t)

/-- One more unauthorised telegram at a port (R6). -/
def PortState.countUnauthorised (q : PortState) : PortState :=
  { q with counts := { q.counts with unauthorised := satAdd 65535 q.counts.unauthorised 1 } }

/-- A telegram addressed to the part (R6). -/
def State.classifyOwn (p : Port) (t : Telegram) (s : State) : State :=
  let refused := s.withPort p (s.port p).countUnauthorised
  match s.tbl.matching p t with
  | none => refused
  | some i => if (s.tbl.entry i).roleOf = .order then s.sourceArrival i t none else refused

/-- A matched telegram that is not for the part (R7). A telegram of kind ORDER is handled as though its entry had no
role, whatever role that is (R6). -/
def State.classifyMatched (p : Port) (i : Nat) (t : Telegram) (s : State) : State :=
  let plain : Bool := (s.tbl.entry i).roleOf == .none || t.kind == kindOrder
  match (s.tbl.entry i).actionOf with
  | .forward => s.forward p.other t
  | .observe => if plain then s.forward p.other t else s.sourceArrival i t (some p.other)
  | .consume => if plain then s else s.sourceArrival i t none
  | .drop => s

/-- A telegram that matches no entry: the default action, FORWARD 0 or DROP 1 (R5). -/
def State.classifyUnmatched (p : Port) (t : Telegram) (s : State) : State :=
  if s.tbl.header.defaultAction = 0 then s.forward p.other t else s

/-- A telegram that passed the checks is classified (R5). -/
def State.classify (p : Port) (t : Telegram) (s : State) : State :=
  if t.dest = s.node then s.classifyOwn p t
  else
    match s.tbl.matching p t with
    | some i => s.classifyMatched p i t
    | none => s.classifyUnmatched p t

/-- One more check error at a port (R4). -/
def PortState.countCheckError (q : PortState) : PortState :=
  { q with counts := { q.counts with checkErrors := satAdd 65535 q.counts.checkErrors 1 } }

/-- A receiver hands on what it collected (R2, R4). -/
def State.receive (p : Port) (rx : Received) (s : State) : State :=
  match checkReceived rx with
  | some t => s.classify p t
  | none => (s.withPort p (s.port p).countCheckError).setFlag .portErrors

/-- A data telegram of the kind of a role: the sender and the arrival port are those of the
role's entry in the active table. Without an entry nothing is sent. -/
def State.fromRole (r : Role) (dest seq : U8) (payload : Bytes) (s : State) : State :=
  match s.roleRecord r with
  | none => s
  | some x => s.classify x.key.port (Telegram.form dest x.key.source (r.kind.getD x.key.kind) seq payload)

end Sys2Proof.Machine
end

