-- ==== Sys2Proof/Machine/Resets.lean ====
section
/-!
DEFINITION. Resets, start-up and supply (R1, R18, R150, R179, R180, R187, R198, R199): the commands POWER_ON,
RESET_INPUT, RESTART_RESET, START_UP_LOAD, SCAN_END and POWER_LOSS.
-/

namespace Sys2Proof.Machine

/-! ### What a reset leaves of the non-volatile memories -/

/-- The profile slots after a save was cut (R148). -/
def State.cutSlots (c : Cut) (s : State) : UserSlots :=
  match s.tables.save with
  | none => s.tables.slots
  | some r =>
    if r.slot = 0 then s.tables.slots
    else
      match c.save with
      | .corrupted => s.tables.slots.set r.slot.val .writing
      | _ =>
        s.tables.slots.set r.slot.val
          (.written r.snapshot.number r.snapshot.tables (slotCrc r.snapshot.number r.snapshot.tables))

/-- The start-up slot selection after a save was cut (R148). -/
def State.cutSelection (c : Cut) (s : State) : Fin 4 :=
  match s.tables.save, c.save with
  | some r, .completeNewSelection => r.slot
  | _, _ => s.tables.selection

/-- The whole part reset: the volatile state at its reset values, the record store as the first part of its scan
leaves it (R179), the start-up load still to come. The restart count is given. -/
def State.resetPart (c : Cut) (restarts : Nat) (s : State) : State :=
  State.atReset s.pending .starting factorySet 0 (s.cutSlots c) (s.cutSelection c)
    (Store.scanFirst (s.store.cutPages c) s.store.retireMarks) restarts

/-- The store without supply: its memory and nothing else. -/
def State.unpoweredStore (c : Cut) (s : State) : Store :=
  { Store.blank with pages := s.store.cutPages c, retireMarks := s.store.retireMarks }

/-! ### RESTART (R198) -/

/-- The transmission is the reply to RESTART. -/
def Transmission.answersRestart : Transmission → Bool
  | .own _ _ _ (.reply f) => f.reply.code == OrderName.restart.code
  | _ => false

/-- A RESTART has been taken and its reply is on the line of a port. -/
def State.restartOnLine (s : State) (p : Port) : Bool :=
  s.orders.restarting && (s.port p).tx.any Transmission.answersRestart

/-! ### The start-up load (R150) -/

/-- What the start-up load loads: the set, its number, and whether it fell back to the factory set. -/
def Tables.startUpSet (t : Tables) : TableSet × U16 × Bool :=
  if t.selection = 0 then (factorySet, 0, false)
  else
    match t.slots.contents t.selection.val with
    | some (n, x) => if x.check.isNone then (x, n, false) else (factorySet, 0, true)
    | none => (factorySet, 0, true)

/-- The part at the end of the start-up load: every block at its reset values under the set loaded, the status
timer started, PROFILE_FAULT set on a fallback. -/
def State.loaded (s : State) : State :=
  let l := s.tables.startUpSet
  let s1 :=
    { State.atReset s.pending .running l.1 l.2.1 s.tables.slots s.tables.selection s.store s.orders.restarts with
      time := s.time }
  let s2 := { s1 with orders := { s1.orders with statusDeadline := some (s1.after s1.statusPeriod) } }
  s2.setFlagIf l.2.2 .profileFault

/-! ### The commands -/

/-- POWER_ON (R199): the supply rises; the restart count is 0. -/
def execPowerOn (c : Cut) (s : State) : Host.Outcome State Fault Refusal := .next (s.resetPart c 0)

/-- RESET_INPUT (R199): the reset input is asserted and released; the restart count is kept. -/
def execResetInput (c : Cut) (s : State) : Host.Outcome State Fault Refusal :=
  .next (if s.phase = .off then s else s.resetPart c s.orders.restarts)

/-- RESTART_RESET (R198): the transmission of the RESTART reply ends, and the restart count increases. -/
def execRestartReset (c : Cut) (s : State) : Host.Outcome State Fault Refusal :=
  .next
    (if s.phase = .running ∧ (s.restartOnLine .cab || s.restartOnLine .drive) then
      s.resetPart c (satAdd 65535 s.orders.restarts 1)
    else s)

/-- START_UP_LOAD (R150): the active set is loaded; the receivers collect from now on. -/
def execStartUpLoad (s : State) : Host.Outcome State Fault Refusal :=
  .next (if s.phase = .starting then s.loaded.finish else s)

/-- The end of the start-up scan (R180). -/
def State.scanEnds (s : State) : State :=
  if s.scanning then
    (State.takeWaiting (s.withStore (s.store.scanDone.judgeReclaim s.retention))).runStore
  else s

/-- SCAN_END (R180). -/
def execScanEnd (s : State) : Host.Outcome State Fault Refusal := .next (s.whenRunning State.scanEnds)

/-- POWER_LOSS (R187, R198): the volatile state is lost, and what was in progress is cut. -/
def execPowerLoss (c : Cut) (s : State) : Host.Outcome State Fault Refusal :=
  .next
    (if s.phase = .off then s
    else
      State.atReset s.pending .off factorySet 0 (s.cutSlots c) (s.cutSelection c) (s.unpoweredStore c) 0)

end Sys2Proof.Machine
end

