-- ==== Sys2Proof/Machine/LinkCommands.lean ====
section
/-!
DEFINITION. The commands that come from the brake link: TELEGRAM_RECEIVED and the data telegrams DEMAND,
AXLE_SPEED, EFFORT_REPORT and CYL_PRESSURE (chapter 1), and TRANSMISSION_END (R13).
-/

namespace Sys2Proof.Machine

/-- TELEGRAM_RECEIVED (R2 to R9): a receiver hands on a telegram, which is checked, classified and delivered. -/
def execTelegramReceived (port : Port) (rx : Received) (s : State) : Host.Outcome State Fault Refusal :=
  .next (s.whenRunning (State.receive port rx))

/-- DEMAND (R31 to R34): a DEMAND telegram of the DEMAND source. -/
def execDemand (dest seq : U8) (effort : U16) (flags : U8) (s : State) : Host.Outcome State Fault Refusal :=
  .next (s.whenRunning (State.fromRole .demand dest seq (DemandPayload.bytes ⟨effort, flags⟩)))

/-- AXLE_SPEED (R84 to R103): a speed sample of the SPEED source. -/
def execAxleSpeed (dest seq : U8) (sampleTime : U16) (speeds : PerAxle U16) (valid : U8) (s : State) :
    Host.Outcome State Fault Refusal :=
  .next (s.whenRunning (State.fromRole .speed dest seq (SpeedPayload.bytes ⟨sampleTime, speeds, valid⟩)))

/-- EFFORT_REPORT (R49): a report of one inverter node. -/
def execEffortReport (node : Inverter) (dest seq : U8) (r1 r2 r3 : InverterReport) (s : State) :
    Host.Outcome State Fault Refusal :=
  .next (s.whenRunning (State.fromRole (inverterRole node) dest seq (EffortPayload.bytes ⟨r1, r2, r3⟩)))

/-- CYL_PRESSURE (R120): the feedbacks of the brake valve node. -/
def execCylPressure (dest seq : U8) (fbA fbB : U16) (valve : U8) (s : State) :
    Host.Outcome State Fault Refusal :=
  .next (s.whenRunning (State.fromRole .pressure dest seq (PressurePayload.bytes ⟨fbA, fbB, valve⟩)))

/-- A transmission ends, and the transmitter starts on the next telegram (R13). The end of the reply to RESTART
is the RESTART reset (R198). -/
def State.transmissionEnds (p : Port) (s : State) : State :=
  if (s.port p).tx.isNone || s.restartOnLine p then s
  else State.startTx p (s.withPort p { s.port p with tx := none })

/-- TRANSMISSION_END (R13). -/
def execTransmissionEnd (port : Port) (s : State) : Host.Outcome State Fault Refusal :=
  .next (s.whenRunning (State.transmissionEnds port))

end Sys2Proof.Machine
end

