-- ==== Sys2Proof/Machine/Deadlines.lean ====
section
/-!
DEFINITION. The deadlines: what each does when link time has reached it, their commands, and the deadlines that
link time has reached, which step puts into the queue when it is empty.
-/

namespace Sys2Proof.Machine

/-- An optional deadline that link time has reached (R1). -/
def State.due (s : State) (d : Option LinkTime) : Bool := d.any (fun x => s.reached x)

/-- The record of an entry has reached its stale deadline. -/
def State.staleDue (s : State) (entry : Nat) : Bool :=
  s.sources.any (fun x => x.entry == entry && x.freshness == .fresh && s.due x.deadline)

/-- The record of an entry expires, and its role is reported stale (R10). -/
def State.staleExpires (entry : Nat) (s : State) : State :=
  match s.sources.find? (fun x => x.entry == entry) with
  | none => s
  | some x => State.reportStale x.role (s.mapSource entry SourceRecord.expire)

/-- STALE_EXPIRY (R10). -/
def execStaleExpiry (entry : Fin 32) (s : State) : Host.Outcome State Fault Refusal :=
  .next (if s.staleDue entry.val then s.whenRunning (State.staleExpires entry.val) else s)

/-- The deadline of the demand-loss timer in WAITING, and in REPEATING. -/
def DemandTimer.waitingUntil : DemandTimer → Option LinkTime
  | .waiting d => some d
  | _ => none
def DemandTimer.repeatsAt : DemandTimer → Option LinkTime
  | .repeating d => some d
  | _ => none

/-- DEMAND_LOSS_EXPIRY (R35). -/
def execDemandLossExpiry (s : State) : Host.Outcome State Fault Refusal :=
  .next
    (if s.due s.control.timer.waitingUntil then s.whenRunning (State.demandLost s.time) else s)

/-- DEMAND_LOSS_REPEAT (R36). -/
def execDemandLossRepeat (s : State) : Host.Outcome State Fault Refusal :=
  .next (if s.due s.control.timer.repeatsAt then s.whenRunning (State.demandRepeat s.time) else s)

/-- ADHESION_RECOVERY_STEP (R91). -/
def execAdhesionRecoveryStep (s : State) : Host.Outcome State Fault Refusal :=
  .next (if s.reached s.slide.recoveryDeadline then s.whenRunning State.recoveryStep else s)

/-- The vent deadline of a truck in VENT. -/
def ActionRecord.ventUntil (r : ActionRecord) : Option LinkTime := if r.action = .vent then r.vent else none

/-- VENT_DEADLINE (R112). -/
def execVentDeadline (truck : Truck) (s : State) : Host.Outcome State Fault Refusal :=
  .next
    (if s.due (s.builder.trucks.get truck).ventUntil then s.whenRunning (State.ventExpire truck) else s)

/-- The deadline of a truck in ARMED. -/
def SupState.armedUntil : SupState → Option LinkTime
  | .armed d => some d
  | _ => none

/-- SUPERVISION_DEADLINE (R122). -/
def execSupervisionDeadline (truck : Truck) (s : State) : Host.Outcome State Fault Refusal :=
  .next
    (if s.due (s.builder.supervision.get truck).state.armedUntil then
      s.whenRunning (State.superviseLate truck)
    else s)

/-- The end of SETTLE, 500 ms after the calibration started, and the limit of STEP, 5000 ms after the step. -/
def Calibration.settleUntil (c : Calibration) : Option LinkTime :=
  if c.phase = .settle then some (c.since + 500) else none
def Calibration.limitAt (c : Calibration) : Option LinkTime :=
  if c.phase = .step then some (c.since + 5000) else none

/-- SETTLE_END (R125). -/
def execSettleEnd (s : State) : Host.Outcome State Fault Refusal :=
  .next
    (match s.builder.calibration with
      | none => s
      | some c => if s.due c.settleUntil then s.whenRunning (State.stepCalibration c) else s)

/-- CAL_TIMEOUT (R126). -/
def execCalTimeout (s : State) : Host.Outcome State Fault Refusal :=
  .next
    (match s.builder.calibration with
      | none => s
      | some c => if s.due c.limitAt then s.whenRunning (State.calibrationLimit c) else s)

/-- STATUS_DEADLINE (R197). -/
def execStatusDeadline (s : State) : Host.Outcome State Fault Refusal :=
  .next (if s.due s.orders.statusDeadline then s.whenRunning State.emitStatus else s)

/-! ### The deadlines reached -/

/-- A command when a condition holds. -/
def dueIf (b : Bool) (i : Instr) : List Instr := if b then [i] else []

/-- The stale expiries that are due, in ascending entry index. -/
def State.dueStale (s : State) : List Instr :=
  (List.finRange 32).flatMap (fun i => dueIf (s.staleDue i.val) (.staleExpiry i))

/-- The commands of the deadlines that link time has reached, in a fixed order. -/
def State.dueCommands (s : State) : List Instr :=
  s.dueStale
    ++ dueIf (s.due s.control.timer.waitingUntil) .demandLossExpiry
    ++ dueIf (s.due s.control.timer.repeatsAt) .demandLossRepeat
    ++ dueIf (s.reached s.slide.recoveryDeadline) .adhesionRecoveryStep
    ++ dueIf (s.due s.builder.trucks.a.ventUntil) (.ventDeadline .a)
    ++ dueIf (s.due s.builder.trucks.b.ventUntil) (.ventDeadline .b)
    ++ dueIf (s.due s.builder.supervision.a.state.armedUntil) (.supervisionDeadline .a)
    ++ dueIf (s.due s.builder.supervision.b.state.armedUntil) (.supervisionDeadline .b)
    ++ dueIf (s.due (s.builder.calibration.bind Calibration.settleUntil)) .settleEnd
    ++ dueIf (s.due (s.builder.calibration.bind Calibration.limitAt)) .calTimeout
    ++ dueIf (s.due s.orders.statusDeadline) .statusDeadline

/-- One millisecond of link time with nothing to do (R1). Without supply link time does not run. -/
def State.tick (s : State) : State := if s.phase = .off then s else { s with time := s.time + 1 }

/-- The part with no command waiting: the deadlines it has reached are put into the queue; when it has reached
none, link time advances by one. -/
def State.idle (s : State) : State :=
  if s.phase = .running ∧ s.dueCommands ≠ [] then { s with pending := s.dueCommands } else s.tick

end Sys2Proof.Machine
end

