-- ==== Sys2Proof/Machine/OrderCommands.lean ====
section
/-!
DEFINITION. The orders (chapter 10): each command is an accepted ORDER of its management source reaching the order
handler, with its name and its arguments in the order and sizes of R189.
-/

namespace Sys2Proof.Machine

/-- An accepted ORDER arrives from its management source (R190). -/
def State.order (o : Origin) (n : OrderName) (args : Bytes) (s : State) : State :=
  s.whenRunning (State.orderArrives o.entry.val o.tag n.code args)

/-- LINK_COUNTS (R16). -/
def execLinkCounts (o : Origin) (clear : U8) (s : State) : Host.Outcome State Fault Refusal :=
  .next (s.order o .linkCounts [clear])

/-- INQUIRE_SOURCE (R17). -/
def execInquireSource (o : Origin) (entry : U8) (s : State) : Host.Outcome State Fault Refusal :=
  .next (s.order o .inquireSource [entry])

/-- ENGAGE (R23). -/
def execEngage (o : Origin) (s : State) : Host.Outcome State Fault Refusal :=
  .next (s.order o .engage [])

/-- RELEASE_CONTROL (R24). -/
def execReleaseControl (o : Origin) (s : State) : Host.Outcome State Fault Refusal :=
  .next (s.order o .releaseControl [])

/-- ENTER_MAINT (R25). -/
def execEnterMaint (o : Origin) (s : State) : Host.Outcome State Fault Refusal :=
  .next (s.order o .enterMaint [])

/-- LEAVE_MAINT (R27). -/
def execLeaveMaint (o : Origin) (s : State) : Host.Outcome State Fault Refusal :=
  .next (s.order o .leaveMaint [])

/-- SET_MODE (R39, R40). -/
def execSetMode (o : Origin) (channel mode : U8) (s : State) : Host.Outcome State Fault Refusal :=
  .next (s.order o .setMode [channel, mode])

/-- SET_VALUE (R41). -/
def execSetValue (o : Origin) (channel : U8) (value : U16) (s : State) : Host.Outcome State Fault Refusal :=
  .next (s.order o .setValue ([channel] ++ be16 value))

/-- INQUIRE_CHANNEL (R43). -/
def execInquireChannel (o : Origin) (channel : U8) (s : State) : Host.Outcome State Fault Refusal :=
  .next (s.order o .inquireChannel [channel])

/-- INQUIRE_CAPABILITY (R60). -/
def execInquireCapability (o : Origin) (s : State) : Host.Outcome State Fault Refusal :=
  .next (s.order o .inquireCapability [])

/-- INQUIRE_BLEND (R82). -/
def execInquireBlend (o : Origin) (s : State) : Host.Outcome State Fault Refusal :=
  .next (s.order o .inquireBlend [])

/-- CLEAR_ATTENTION (R105). -/
def execClearAttention (o : Origin) (axles : U8) (s : State) : Host.Outcome State Fault Refusal :=
  .next (s.order o .clearAttention [axles])

/-- INQUIRE_SLIDE (R107). -/
def execInquireSlide (o : Origin) (s : State) : Host.Outcome State Fault Refusal :=
  .next (s.order o .inquireSlide [])

/-- INQUIRE_COMMAND (R130). -/
def execInquireCommand (o : Origin) (s : State) : Host.Outcome State Fault Refusal :=
  .next (s.order o .inquireCommand [])

/-- CALIBRATE (R124). -/
def execCalibrate (o : Origin) (channel : U8) (s : State) : Host.Outcome State Fault Refusal :=
  .next (s.order o .calibrate [channel])

/-- LOAD (R134 to R138). -/
def execLoad (o : Origin) (sect start count last : U8) (items : Bytes) (s : State) : Host.Outcome State Fault Refusal :=
  .next (s.order o .load ([sect, start, count, last] ++ items))

/-- ACCEPT (R139, R142). -/
def execAccept (o : Origin) (s : State) : Host.Outcome State Fault Refusal :=
  .next (s.order o .accept [])

/-- REJECT (R140). -/
def execReject (o : Origin) (s : State) : Host.Outcome State Fault Refusal :=
  .next (s.order o .reject [])

/-- ABANDON (R140). -/
def execAbandon (o : Origin) (s : State) : Host.Outcome State Fault Refusal :=
  .next (s.order o .abandon [])

/-- READ_TABLE (R144). -/
def execReadTable (o : Origin) (selector sect start count : U8) (s : State) : Host.Outcome State Fault Refusal :=
  .next (s.order o .readTable [selector, sect, start, count])

/-- LIST_PROFILES (R146). -/
def execListProfiles (o : Origin) (s : State) : Host.Outcome State Fault Refusal :=
  .next (s.order o .listProfiles [])

/-- LOAD_PROFILE (R149). -/
def execLoadProfile (o : Origin) (slot : U8) (s : State) : Host.Outcome State Fault Refusal :=
  .next (s.order o .loadProfile [slot])

/-- SAVE_PROFILE (R147). -/
def execSaveProfile (o : Origin) (slot : U8) (s : State) : Host.Outcome State Fault Refusal :=
  .next (s.order o .saveProfile [slot])

/-- ARM (R157). -/
def execArm (o : Origin) (s : State) : Host.Outcome State Fault Refusal :=
  .next (s.order o .arm [])

/-- DISARM (R157). -/
def execDisarm (o : Origin) (s : State) : Host.Outcome State Fault Refusal :=
  .next (s.order o .disarm [])

/-- TRIGGER (R161). -/
def execTrigger (o : Origin) (s : State) : Host.Outcome State Fault Refusal :=
  .next (s.order o .trigger [])

/-- READ_RING (R167). -/
def execReadRing (o : Origin) (offset : U16) (count : U8) (s : State) : Host.Outcome State Fault Refusal :=
  .next (s.order o .readRing (be16 offset ++ [count]))

/-- INQUIRE_RECORDER (R168). -/
def execInquireRecorder (o : Origin) (clear : U8) (s : State) : Host.Outcome State Fault Refusal :=
  .next (s.order o .inquireRecorder [clear])

/-- READ_RECORD (R182). -/
def execReadRecord (o : Origin) (incident : U32) (item : U16) (cont : U8) (s : State) : Host.Outcome State Fault Refusal :=
  .next (s.order o .readRecord (be32 incident ++ be16 item ++ [cont]))

/-- READ_NEXT (R183). -/
def execReadNext (o : Origin) (s : State) : Host.Outcome State Fault Refusal :=
  .next (s.order o .readNext [])

/-- LIST_RECORDS (R184). -/
def execListRecords (o : Origin) (start : U8) (s : State) : Host.Outcome State Fault Refusal :=
  .next (s.order o .listRecords [start])

/-- PIN_RECORD (R184). -/
def execPinRecord (o : Origin) (incident : U32) (s : State) : Host.Outcome State Fault Refusal :=
  .next (s.order o .pinRecord (be32 incident))

/-- UNPIN_RECORD (R184). -/
def execUnpinRecord (o : Origin) (incident : U32) (s : State) : Host.Outcome State Fault Refusal :=
  .next (s.order o .unpinRecord (be32 incident))

/-- CLEAR_STORE (R185). -/
def execClearStore (o : Origin) (s : State) : Host.Outcome State Fault Refusal :=
  .next (s.order o .clearStore [])

/-- INQUIRE_STORE (R186). -/
def execInquireStore (o : Origin) (s : State) : Host.Outcome State Fault Refusal :=
  .next (s.order o .inquireStore [])

/-- INQUIRE (R194). -/
def execInquire (o : Origin) (s : State) : Host.Outcome State Fault Refusal :=
  .next (s.order o .inquire [])

/-- CLEAR_FAULTS (R195). -/
def execClearFaults (o : Origin) (classes : U8) (s : State) : Host.Outcome State Fault Refusal :=
  .next (s.order o .clearFaults [classes])

/-- RESTART (R198). -/
def execRestart (o : Origin) (s : State) : Host.Outcome State Fault Refusal :=
  .next (s.order o .restart [])

end Sys2Proof.Machine
end

