-- ==== Sys2Proof/Machine/StoreCommands.lean ====
section
/-!
DEFINITION. The ends of the operations of the non-volatile memories: COMMIT_END, ERASE_END and PAGE_READ_END of the
record store (chapter 9), and SAVE_PROFILE_COMPLETE of the profile store (R147, R148).
-/

namespace Sys2Proof.Machine

/-- A commit attempt ends (R173, R174), then reclaim, building and the arbiter go on. -/
def State.commitEnds (r : CommitResult) (s : State) : State :=
  match s.store.op, s.store.queue with
  | .commit a, q :: rest =>
    (match r with
      | .agrees next => s.withStore (s.store.commitAgrees q rest a next)
      | .mismatch left =>
        ((s.withStore (s.store.commitMismatch q rest a left)).setFlagIf (s.store.mismatchRetires a left)
          .bankRetired).setFlagIf (3 ≤ q.attempts + 1) .pageDropped).runStore
  | _, _ => s

/-- COMMIT_END (R173). -/
def execCommitEnd (result : CommitResult) (s : State) : Host.Outcome State Fault Refusal :=
  .next (s.whenRunning (State.commitEnds result))

/-- An erase ends (R176), and a CLEAR_STORE it was the last of is answered (R185). -/
def State.eraseEnds (left : List (Nat × Bytes)) (s : State) : State :=
  match s.store.op with
  | .erase i =>
    let e := s.store.eraseEnds i left
    let t := { e.1 with job := e.1.job.map (fun j => j.afterErase i e.2) }
    ((s.withStore t).setFlagIf e.2 .bankRetired).finishClear.runStore
  | _ => s

/-- ERASE_END (R176). -/
def execEraseEnd (left : List (Nat × Bytes)) (s : State) : Host.Outcome State Fault Refusal :=
  .next (s.whenRunning (State.eraseEnds left))

/-- A page read ends (R182, R183): the walk goes on, or the read is answered. -/
def State.pageReadEnds (s : State) : State :=
  match s.store.op, s.store.job with
  | .read _, some (.walk w) =>
    (State.readStep w.incident w.item w.keep (s.store.walkStep w)
      (s.withStore { s.store with op := .idle })).runStore
  | _, _ => s

/-- PAGE_READ_END (R182). -/
def execPageReadEnd (s : State) : Host.Outcome State Fault Refusal := .next (s.whenRunning State.pageReadEnds)

/-- SAVE_PROFILE_COMPLETE (R147, R148): the read-back of a save has ended. -/
def execSaveProfileComplete (agrees : Bool) (s : State) : Host.Outcome State Fault Refusal :=
  .next
    (match s.tables.save with
      | none => s
      | some r => s.whenRunning (State.saveEnds r agrees))

end Sys2Proof.Machine
end

