-- ==== Sys2Proof/Machine/Dispatch.lean ====
section
/-!
DEFINITION. The dispatch: one arm for each command of spec/opcode_table.json, each a call of its meaning.
-/

namespace Sys2Proof.Machine

/-- The effect of a command on everything but the queue. -/
def exec (i : Instr) (s : State) : Host.Outcome State Fault Refusal :=
  match i with
  | .powerOn cut => Sys2Proof.Machine.execPowerOn cut s
  | .resetInput cut => Sys2Proof.Machine.execResetInput cut s
  | .restartReset cut => Sys2Proof.Machine.execRestartReset cut s
  | .startUpLoad => Sys2Proof.Machine.execStartUpLoad s
  | .scanEnd => Sys2Proof.Machine.execScanEnd s
  | .telegramReceived port rx => Sys2Proof.Machine.execTelegramReceived port rx s
  | .demand dest seq effort flags => Sys2Proof.Machine.execDemand dest seq effort flags s
  | .axleSpeed dest seq sampleTime speeds valid => Sys2Proof.Machine.execAxleSpeed dest seq sampleTime speeds valid s
  | .effortReport node dest seq r1 r2 r3 => Sys2Proof.Machine.execEffortReport node dest seq r1 r2 r3 s
  | .cylPressure dest seq fbA fbB valve => Sys2Proof.Machine.execCylPressure dest seq fbA fbB valve s
  | .staleExpiry entry => Sys2Proof.Machine.execStaleExpiry entry s
  | .demandLossExpiry => Sys2Proof.Machine.execDemandLossExpiry s
  | .demandLossRepeat => Sys2Proof.Machine.execDemandLossRepeat s
  | .adhesionRecoveryStep => Sys2Proof.Machine.execAdhesionRecoveryStep s
  | .ventDeadline truck => Sys2Proof.Machine.execVentDeadline truck s
  | .supervisionDeadline truck => Sys2Proof.Machine.execSupervisionDeadline truck s
  | .settleEnd => Sys2Proof.Machine.execSettleEnd s
  | .calTimeout => Sys2Proof.Machine.execCalTimeout s
  | .statusDeadline => Sys2Proof.Machine.execStatusDeadline s
  | .transmissionEnd port => Sys2Proof.Machine.execTransmissionEnd port s
  | .linkCounts o clear => Sys2Proof.Machine.execLinkCounts o clear s
  | .inquireSource o entry => Sys2Proof.Machine.execInquireSource o entry s
  | .engage o => Sys2Proof.Machine.execEngage o s
  | .releaseControl o => Sys2Proof.Machine.execReleaseControl o s
  | .enterMaint o => Sys2Proof.Machine.execEnterMaint o s
  | .leaveMaint o => Sys2Proof.Machine.execLeaveMaint o s
  | .setMode o channel mode => Sys2Proof.Machine.execSetMode o channel mode s
  | .setValue o channel value => Sys2Proof.Machine.execSetValue o channel value s
  | .inquireChannel o channel => Sys2Proof.Machine.execInquireChannel o channel s
  | .inquireCapability o => Sys2Proof.Machine.execInquireCapability o s
  | .inquireBlend o => Sys2Proof.Machine.execInquireBlend o s
  | .clearAttention o axles => Sys2Proof.Machine.execClearAttention o axles s
  | .inquireSlide o => Sys2Proof.Machine.execInquireSlide o s
  | .inquireCommand o => Sys2Proof.Machine.execInquireCommand o s
  | .calibrate o channel => Sys2Proof.Machine.execCalibrate o channel s
  | .load o sect start count last items => Sys2Proof.Machine.execLoad o sect start count last items s
  | .accept o => Sys2Proof.Machine.execAccept o s
  | .reject o => Sys2Proof.Machine.execReject o s
  | .abandon o => Sys2Proof.Machine.execAbandon o s
  | .readTable o selector sect start count => Sys2Proof.Machine.execReadTable o selector sect start count s
  | .listProfiles o => Sys2Proof.Machine.execListProfiles o s
  | .loadProfile o slot => Sys2Proof.Machine.execLoadProfile o slot s
  | .saveProfile o slot => Sys2Proof.Machine.execSaveProfile o slot s
  | .saveProfileComplete agrees => Sys2Proof.Machine.execSaveProfileComplete agrees s
  | .arm o => Sys2Proof.Machine.execArm o s
  | .disarm o => Sys2Proof.Machine.execDisarm o s
  | .trigger o => Sys2Proof.Machine.execTrigger o s
  | .readRing o offset count => Sys2Proof.Machine.execReadRing o offset count s
  | .inquireRecorder o clear => Sys2Proof.Machine.execInquireRecorder o clear s
  | .readRecord o incident item cont => Sys2Proof.Machine.execReadRecord o incident item cont s
  | .readNext o => Sys2Proof.Machine.execReadNext o s
  | .listRecords o start => Sys2Proof.Machine.execListRecords o start s
  | .pinRecord o incident => Sys2Proof.Machine.execPinRecord o incident s
  | .unpinRecord o incident => Sys2Proof.Machine.execUnpinRecord o incident s
  | .clearStore o => Sys2Proof.Machine.execClearStore o s
  | .inquireStore o => Sys2Proof.Machine.execInquireStore o s
  | .inquire o => Sys2Proof.Machine.execInquire o s
  | .clearFaults o classes => Sys2Proof.Machine.execClearFaults o classes s
  | .restart o => Sys2Proof.Machine.execRestart o s
  | .commitEnd result => Sys2Proof.Machine.execCommitEnd result s
  | .eraseEnd left => Sys2Proof.Machine.execEraseEnd left s
  | .pageReadEnd => Sys2Proof.Machine.execPageReadEnd s
  | .powerLoss cut => Sys2Proof.Machine.execPowerLoss cut s

end Sys2Proof.Machine
end

