-- ==== Sys2Proof/WellFormed.lean ====
section
/-!
DEFINITION. Which operands a command of the outside can have: what the link and the memories can deliver. The
meanings are total and do not ask for it.
-/

namespace Sys2Proof

/-- What a receiver hands on has at most 71 bytes, as the longest telegram has (section 1.2). R2 and R4 give what is handed
on no such bound: DESIGN CHOICE, log entry 53. The meaning of `telegramReceived` is total, and longer ones are check
errors. -/
def Received.wellFormed : Received → Bool
  | .whole b => b.length ≤ 71
  | .truncated b => b.length ≤ 71

/-- A page has 590 bytes (section 9.1.1). -/
def pageSized (b : Bytes) : Bool := b.length == 590

/-- A next code that reads other than written is a broken link (R173). -/
def nextRead : Option U8 → Bool
  | none => true
  | some n => Machine.NextCode.ofByte n == .broken

/-- What a reset leaves of a commit in progress (R187): bytes that read bad, and a broken link at most. -/
def Cut.wellFormed (c : Cut) : Bool :=
  nextRead c.next &&
    (match c.page with
      | .bad b => pageSized b && Machine.pageClass b == .bad
      | _ => true)

/-- The outcome of a commit attempt: a broken link, or a page's bytes. -/
def CommitResult.wellFormed : CommitResult → Bool
  | .agrees next => nextRead next
  | .mismatch left => pageSized left

/-- The pages an erase left other than erased: pages 0 to 63, each once, rising, with their bytes. -/
def erasedLeft : List (Nat × Bytes) → Bool
  | [] => true
  | (p, b) :: rest =>
    p < 64 && pageSized b && !(b.all (· == 0xFF)) && rest.all (fun x => p < x.1) && erasedLeft rest

/-- The operands of a command are such as the outside can give. -/
def Instr.wellFormed (i : Instr) : Bool :=
  match i with
  | .powerOn c => c.wellFormed
  | .resetInput c => c.wellFormed
  | .restartReset c => c.wellFormed
  | .powerLoss c => c.wellFormed
  | .telegramReceived _ rx => rx.wellFormed
  | .load _ _ _ _ _ items => items.length ≤ 58
  | .commitEnd r => r.wellFormed
  | .eraseEnd left => erasedLeft left
  | _ => true

end Sys2Proof
end

