-- ==== Sys2Proof/Safety.lean ====
section
/-!
DEFINITION. The terms in which statements speak of states: what a change leaves as it was, what stands ready for an
order or a telegram, where a reply is, and the bounds that make a state sound.
-/

namespace Sys2Proof.Machine

/-! ### What is left unchanged -/

/-- Only the recorder's work lies between two states: the capture unit and the record store may differ, and of the
flags STORE_FULL and PAGE_DROPPED. Everything else is equal. -/
structure RecorderOnly (s t : State) : Prop where
  pending : t.pending = s.pending
  phase : t.phase = s.phase
  time : t.time = s.time
  ports : t.ports = s.ports
  sources : t.sources = s.sources
  control : t.control = s.control
  capability : t.capability = s.capability
  blender : t.blender = s.blender
  slide : t.slide = s.slide
  builder : t.builder = s.builder
  tables : t.tables = s.tables
  pages : t.store.pages = s.store.pages
  retireMarks : t.store.retireMarks = s.store.retireMarks
  slot : t.orders.slot = s.orders.slot
  positions : t.orders.positions = s.orders.positions
  statusDeadline : t.orders.statusDeadline = s.orders.statusDeadline
  restarts : t.orders.restarts = s.orders.restarts
  restarting : t.orders.restarting = s.orders.restarting
  nextPid : t.orders.nextPid = s.orders.nextPid
  reported : t.orders.reported = s.orders.reported
  flags : ∀ f, f ≠ .storeFull → f ≠ .pageDropped → t.flag f = s.flag f

/-- Only telegrams and reports lie between two states: the ports, the reply positions, the status timer and what
was last reported may differ, and of the flags QUEUE_DROP, and of the ports' counts the queue drops. Everything else is equal. -/
structure ReportOnly (s t : State) : Prop where
  pending : t.pending = s.pending
  phase : t.phase = s.phase
  time : t.time = s.time
  sources : t.sources = s.sources
  control : t.control = s.control
  capability : t.capability = s.capability
  blender : t.blender = s.blender
  slide : t.slide = s.slide
  builder : t.builder = s.builder
  tables : t.tables = s.tables
  capture : t.capture = s.capture
  store : t.store = s.store
  slot : t.orders.slot = s.orders.slot
  restarts : t.orders.restarts = s.orders.restarts
  restarting : t.orders.restarting = s.orders.restarting
  nextPid : t.orders.nextPid = s.orders.nextPid
  flags : ∀ f, f ≠ .queueDrop → t.flag f = s.flag f
  errors : ∀ p, (t.port p).counts.checkErrors = (s.port p).counts.checkErrors
    ∧ (t.port p).counts.unauthorised = (s.port p).counts.unauthorised

/-- Telegrams, reports and the recorder's work lie between two states, and nothing else. -/
structure OutputOnly (s t : State) : Prop where
  pending : t.pending = s.pending
  phase : t.phase = s.phase
  time : t.time = s.time
  sources : t.sources = s.sources
  control : t.control = s.control
  capability : t.capability = s.capability
  blender : t.blender = s.blender
  slide : t.slide = s.slide
  builder : t.builder = s.builder
  tables : t.tables = s.tables
  pages : t.store.pages = s.store.pages
  retireMarks : t.store.retireMarks = s.store.retireMarks
  slot : t.orders.slot = s.orders.slot
  restarts : t.orders.restarts = s.orders.restarts
  restarting : t.orders.restarting = s.orders.restarting
  nextPid : t.orders.nextPid = s.orders.nextPid
  flags : ∀ f, f ≠ .queueDrop → f ≠ .storeFull → f ≠ .pageDropped → t.flag f = s.flag f
  errors : ∀ p, (t.port p).counts.checkErrors = (s.port p).counts.checkErrors
    ∧ (t.port p).counts.unauthorised = (s.port p).counts.unauthorised

/-- What no event but a reset or the passing of time changes. -/
structure Kept (s t : State) : Prop where
  pending : t.pending = s.pending
  phase : t.phase = s.phase
  time : t.time = s.time
  restarts : t.orders.restarts = s.orders.restarts

/-! ### Reply positions and replies -/

/-- No reply position holds an order. -/
def State.noHeld (s : State) : Prop := ∀ p ∈ s.orders.positions, p.held = none

/-- No reply position holds an order or a deferred reply, and none is departing. -/
def State.quiet (s : State) : Prop :=
  ∀ p ∈ s.orders.positions, p.held = none ∧ p.deferred = none ∧ p.departing = false

/-- The part is running, no RESTART has been taken, and the management source of an order has a CLEAR reply
position, `p`; no position holds an order or a deferred reply, and none is departing (R190). -/
structure Ready (s : State) (o : Origin) (p : Position) : Prop where
  running : s.phase = .running
  taking : s.orders.restarting = false
  entry : s.entryPosition o.entry.val = some p
  number : s.position p.pid = some p
  clear : p.queued = false
  quiet : s.quiet

/-- A REPLY telegram that begins a reply for a position. -/
def startsReply (pid : Nat) (r : Reply) : OwnTelegram → Bool
  | .reply f => f.pid == pid && f.reply == r && f.number == 0
  | _ => false

/-- A transmission that carries a telegram with a property. -/
def Transmission.carriesOwn (f : OwnTelegram → Bool) : Transmission → Bool
  | .own _ _ _ t => f t
  | .forwarded _ => false

/-- A reply for a position has been handed over to a port: its first telegram waits there or is on the line. -/
def State.replied (s : State) (port : Port) (pid : Nat) (r : Reply) : Prop :=
  (s.port port).own.any (startsReply pid r) = true
    ∨ (s.port port).tx.any (Transmission.carriesOwn (startsReply pid r)) = true

/-- A reply position but for its queued mark. -/
def Position.unmarked (p : Position) : Position := { p with queued := false }

/-- Two states hold the same reply positions, but for the queued marks. -/
def SamePositions (s t : State) : Prop :=
  t.orders.positions.map Position.unmarked = s.orders.positions.map Position.unmarked

/-- A reply has been handed over to the CLEAR position `p` by an event that leads to `s1`: it is placed in the queue
of its port, and beyond that only reports and queued marks lie between `s1` and `t`. That changes of status are reported
once, at the event's end, and that the positions settle there, are the model's choices (log entries 7 and 8). -/
def Handed (p : Position) (r : Reply) (s1 t : State) : Prop :=
  ReportOnly s1 t ∧ SamePositions s1 t ∧ t.quiet ∧ t.replied p.key.port p.pid r ∧ t = (s1.handOver p.pid r).report

/-- A short order has been answered and has done what leads to `s1`: its changes are reported, its reply is handed
over to its position, and beyond that only telegrams, reports and queued marks lie between `s1` and `t`. That the report
comes once, before the short order's reply, and that the positions settle at the event's end, are the model's choices
(log entries 7 and 8). -/
def Answered (o : Origin) (p : Position) (code : U8) (res : Result) (data : ReplyData) (s1 t : State) : Prop :=
  ReportOnly s1 t ∧ SamePositions s1 t ∧ t.quiet ∧ t.replied p.key.port p.pid ⟨o.tag, code, res, data⟩
    ∧ t = (s1.report.handOver p.pid ⟨o.tag, code, res, data⟩).report

/-- An event has done what leads to `s1`, and then only telegrams and reports lie between `s1` and `t`: with quiet
reply positions, exactly the report of what `s1` changed (R197). That it is made once, at the event's end, and that
positions settle after it, are the model's choices (log entries 7 and 8). -/
def Reported (s1 t : State) : Prop := ReportOnly s1 t ∧ (s1.quiet → t = s1.report)

/-- The long order in the slot and its reply position, which is CLEAR; no position holds anything. -/
structure Waiting (s : State) (l : LongOrder) (p : Position) : Prop where
  running : s.phase = .running
  slot : s.orders.slot = some l
  number : s.position l.pid = some p
  clear : p.queued = false
  quiet : s.quiet

/-- Capture unit and record store have nothing to start: no capture, room ahead of the writer, and an operation in
progress, or the scan running, or nothing to commit and neither a read nor an erase waiting. -/
structure State.storeStill (s : State) : Prop where
  record : s.capture.record = none
  room : 2 ≤ s.store.roomBanks
  nothing : s.store.op ≠ .idle ∨ s.store.scan = .scanning
    ∨ (s.store.queue = [] ∧ s.store.erases = [] ∧ ∀ w, s.store.job ≠ some (.walk w))

/-! ### Telegrams -/

/-- The telegram of a data command: from the source of a record, of its role's kind. -/
def SourceRecord.telegram (x : SourceRecord) (dest seq : U8) (payload : Bytes) : Telegram :=
  Telegram.form dest x.key.source (x.role.kind.getD x.key.kind) seq payload

/-- A telegram of the source of record `x` is accepted with mark `m` under an entry that observes or consumes it:
it is not for the part, matches the record's entry, and follows on (R5 to R9). -/
structure Accepts (s : State) (x : SourceRecord) (dest seq : U8) (payload : Bytes) (m : Mark) : Prop where
  running : s.phase = .running
  record : s.roleRecord x.role = some x
  entry : s.sources.find? (fun y => y.entry == x.entry) = some x
  notOurs : dest ≠ s.node
  key : s.tbl.matching x.key.port (x.telegram dest seq payload) = some x.entry
  role : (s.tbl.entry x.entry).roleOf = x.role
  action : (s.tbl.entry x.entry).actionOf = .observe ∨ (s.tbl.entry x.entry).actionOf = .consume
  content : contentOk x.role (x.telegram dest seq payload) = true
  mark : x.mark seq = some m

/-- The part when an accepted telegram is given to its consumer: the record accepted it, and an entry that observes
it has it forwarded (R7, R9). -/
def State.accepted (s : State) (x : SourceRecord) (dest seq : U8) (payload : Bytes) (m : Mark) : State :=
  let s1 := s.mapSource x.entry (fun y => y.accept seq m s.time (s.tbl.entry x.entry).staleTimeout)
  if (s.tbl.entry x.entry).actionOf = .observe then
    s1.forward x.key.port.other (x.telegram dest seq payload)
  else s1

/-! ### Commands -/

/-- The command resets the part or takes its supply away. -/
def isReset : Instr → Bool
  | .powerOn _ => true
  | .resetInput _ => true
  | .restartReset _ => true
  | .powerLoss _ => true
  | _ => false

/-- The command may change what the record store's memory reads: a reset or a loss of supply, which may cut an
operation, and the end of a commit or of an erase. -/
def endsMemoryWork : Instr → Bool
  | .commitEnd _ => true
  | .eraseEnd _ => true
  | c => isReset c

/-- An order command as the ORDER that it stands for: its source and tag, its name, and its argument bytes in the
order and sizes of R189. -/
def asOrder : Instr → Option (Origin × OrderName × Bytes)
  | .linkCounts o clear => some (o, .linkCounts, [clear])
  | .inquireSource o entry => some (o, .inquireSource, [entry])
  | .engage o => some (o, .engage, [])
  | .releaseControl o => some (o, .releaseControl, [])
  | .enterMaint o => some (o, .enterMaint, [])
  | .leaveMaint o => some (o, .leaveMaint, [])
  | .setMode o channel mode => some (o, .setMode, [channel, mode])
  | .setValue o channel value => some (o, .setValue, channel :: be16 value)
  | .inquireChannel o channel => some (o, .inquireChannel, [channel])
  | .inquireCapability o => some (o, .inquireCapability, [])
  | .inquireBlend o => some (o, .inquireBlend, [])
  | .clearAttention o axles => some (o, .clearAttention, [axles])
  | .inquireSlide o => some (o, .inquireSlide, [])
  | .inquireCommand o => some (o, .inquireCommand, [])
  | .calibrate o channel => some (o, .calibrate, [channel])
  | .load o sect start count last items => some (o, .load, [sect, start, count, last] ++ items)
  | .accept o => some (o, .accept, [])
  | .reject o => some (o, .reject, [])
  | .abandon o => some (o, .abandon, [])
  | .readTable o selector sect start count => some (o, .readTable, [selector, sect, start, count])
  | .listProfiles o => some (o, .listProfiles, [])
  | .loadProfile o slot => some (o, .loadProfile, [slot])
  | .saveProfile o slot => some (o, .saveProfile, [slot])
  | .arm o => some (o, .arm, [])
  | .disarm o => some (o, .disarm, [])
  | .trigger o => some (o, .trigger, [])
  | .readRing o offset count => some (o, .readRing, be16 offset ++ [count])
  | .inquireRecorder o clear => some (o, .inquireRecorder, [clear])
  | .readRecord o incident item cont => some (o, .readRecord, be32 incident ++ be16 item ++ [cont])
  | .readNext o => some (o, .readNext, [])
  | .listRecords o start => some (o, .listRecords, [start])
  | .pinRecord o incident => some (o, .pinRecord, be32 incident)
  | .unpinRecord o incident => some (o, .unpinRecord, be32 incident)
  | .clearStore o => some (o, .clearStore, [])
  | .inquireStore o => some (o, .inquireStore, [])
  | .inquire o => some (o, .inquire, [])
  | .clearFaults o classes => some (o, .clearFaults, [classes])
  | .restart o => some (o, .restart, [])
  | _ => none

/-! ### Sound states -/

/-- The memory of the record store has its canonical form. -/
def State.memoryWf (s : State) : Bool := pagesWf s.store.pages

/-- The ring holds at most 250 samples (R154), the commit queue at most 4 pages (R173) and the pin list at most 8
numbers (R184). -/
def State.bounded (s : State) : Prop :=
  s.capture.ring.length ≤ Config.ringSize ∧ s.store.queue.length ≤ Config.commitQueue
    ∧ s.store.pins.length ≤ Config.pinListSize

/-- The sizes of the part's stores (`State.bounded`) and the range of the heat index (R52); at most 8 triggers in the list
of a capture (R160); and waiting pages of 1 to 10 samples, or of at most 8 list entries (R163). -/
structure SizesSound (s : State) : Prop where
  bounded : s.bounded
  heat : s.capability.heat ≤ 999999
  extras : ∀ r, s.capture.record = some r → r.extras.length ≤ 8
  built : ∀ q ∈ s.store.queue, match q.page.body with
    | .opening _ => True
    | .samples l => 1 ≤ l.length ∧ l.length ≤ 10
    | .closing d => d.extras.length ≤ 8

/-- Every set that is active, or may become active without a check, passes every check and has its own CRC (R133, R137,
R142), and a lag that is being measured lies within what the TRUCK check admits (R126). -/
structure TablesSound (s : State) : Prop where
  active : s.tbl.check = none ∧ s.tables.active.crc = s.tbl.crc
  staged : match s.tables.staging with
    | .awaitDecision t crc r => crc = t.crc ∧ (r = none → t.check = none)
    | .pendingSwitch t crc => crc = t.crc ∧ t.check = none
    | _ => True
  measured : ∀ c, s.builder.calibration = some c →
    s.phase = .running ∧ (c.phase = .step → (s.time - c.since).toNat ≤ 5000)

/-- Every slide limit is at most its axle's unlimited value, and equal to it in ADHERED (R92); the adhesion estimate lies
from a_min to a_max (R90). -/
structure SlideSound (s : State) : Prop where
  limit : ∀ a, (s.slide.axles.get a).limit ≤ s.tbl.unlimited a
  adhered : ∀ a, (s.slide.axles.get a).state = .adhered → (s.slide.axles.get a).limit = s.tbl.unlimited a
  estimate : s.tbl.adhesion.aMin.toNat ≤ s.slide.aEst ∧ s.slide.aEst ≤ s.tbl.adhesion.aMax.toNat

/-- The occupant of the long-order slot has one of some names. -/
def State.slotNamed (s : State) (names : List OrderName) : Prop := ∃ l, s.orders.slot = some l ∧ l.name ∈ names

/-- Outside MAINTENANCE no channel is MANUAL or CALIBRATE (R26); an absent axle's channel is OFF; a truck's channel is
CALIBRATE while its calibration is in progress, which needs MAINTENANCE at rest; MAINTENANCE ends above 300 sc (R28). In
FALLBACK no electric effort is allocated (R116); in STANDBY the allocation table is 0 and both actions are NORMAL (R66,
R110). The long-order slot is occupied by the order whose owner is at work (R192). -/
structure ModesSound (s : State) : Prop where
  plain : s.control.partState ≠ .maintenance →
    (∀ a, (s.control.axles.get a).mode = .off ∨ (s.control.axles.get a).mode = .auto)
    ∧ ∀ k, (s.control.trucks.get k).mode = .off ∨ (s.control.trucks.get k).mode = .auto
  axles : ∀ a, (s.control.axles.get a).mode ≠ .calibrate
    ∧ (s.tbl.present a = false → (s.control.axles.get a).mode = .off)
  calibrating : ∀ k, (s.control.trucks.get k).mode = .calibrate ↔ ∃ c, s.builder.calibration = some c ∧ c.truck = k
  atRest : (s.control.partState = .maintenance → s.slide.vref ≤ 300)
    ∧ (s.builder.calibration.isSome = true → s.control.partState = .maintenance ∧ s.slide.vref = 0)
  fallback : s.control.partState = .fallback → ∀ a, s.blender.alloc.efforts.get a = 0
  standby : s.control.partState = .standby →
    (∀ a, s.blender.alloc.efforts.get a = 0)
    ∧ ∀ k, s.blender.alloc.air.get k = 0 ∧ s.blender.alloc.pressures.get k = 0
        ∧ s.builder.trucks.get k = ⟨.normal, none, none⟩
  slot : (s.builder.calibration.isSome = true ↔ s.slotNamed [.calibrate])
    ∧ (s.tables.save.isSome = true ↔ s.slotNamed [.saveProfile])
    ∧ (s.store.job.isSome = true ↔ s.slotNamed [.readRecord, .readNext, .listRecords, .clearStore])

/-- At most one bank is WRITING (R171); the directory holds at most 48 records, in falling incident number below the
next one, of which at most one is CAPTURING: that of the capture in progress, or one whose CLOSE page waits (R177, R178).
While the scan runs the store does nothing else, and what the scan will find lies below what the directory holds (R180).
The recorder is CAPTURING exactly while a capture is in progress. -/
structure StoreSound (s : State) : Prop where
  writing : ∀ i j, i < 16 → j < 16 → s.store.bankIs .writing i = true → s.store.bankIs .writing j = true → i = j
  size : s.store.directory.length ≤ 48
  order : (s.store.directory.map DirEntry.incident).Pairwise (· > ·)
    ∧ ∀ e ∈ s.store.directory, e.incident < s.store.nextIncident
  scanning : s.store.scan = .scanning → s.store.op = .idle
    ∧ ∀ e ∈ s.store.scannedEntries, e.incident < s.store.nextIncident ∧ ∀ d ∈ s.store.directory, e.incident < d.incident
  one : ∀ e ∈ s.store.directory, ∀ f ∈ s.store.directory, e.state = .capturing → f.state = .capturing → e = f
  capturing : ∀ e ∈ s.store.directory, e.state = .capturing →
    (∃ r, s.capture.record = some r ∧ r.incident = e.incident) ∨ s.store.closeQueued e.incident = true
  recorder : s.capture.recorder = .capturing ↔ s.capture.record.isSome = true

/-- The reply position that a waiting telegram is a reply for. -/
def OwnTelegram.replyFor : OwnTelegram → Option Nat
  | .reply f => some f.pid
  | _ => none

def OwnTelegram.isCommand : OwnTelegram → Bool
  | .brakeCmd _ => true
  | _ => false

def OwnTelegram.isStatus : OwnTelegram → Bool
  | .partStatus _ => true
  | _ => false

/-- In each output queue at most 12 telegrams wait, of which at most 6 are the part's own: at most one BRAKE_CMD, at most
one PART_STATUS, and at most one REPLY for each reply position, which is then QUEUED (R12, R14, R190). Reply positions
have numbers of their own; those of ORDER records stand in ascending order of their entries; those that may have replies
are at most four, and a new one has none while a departing one exists (R193). -/
structure QueuesSound (s : State) : Prop where
  room : ∀ p, (s.port p).own.length ≤ 6 ∧ (s.port p).waiting ≤ 12
  commands : ∀ p, ((s.port p).own.filter OwnTelegram.isCommand).length ≤ 1
    ∧ ((s.port p).own.filter OwnTelegram.isStatus).length ≤ 1
  replies : ∀ p, ((s.port p).own.filterMap OwnTelegram.replyFor).Nodup
    ∧ ∀ pid ∈ (s.port p).own.filterMap OwnTelegram.replyFor,
        ∃ q ∈ s.orders.positions, q.pid = pid ∧ q.queued = true ∧ q.key.port = p
  numbers : (s.orders.positions.map (fun q => q.pid)).Nodup ∧ (∀ q ∈ s.orders.positions, q.pid < s.orders.nextPid)
    ∧ ∀ l, s.orders.slot = some l → l.pid < s.orders.nextPid
  four : (s.orders.positions.filter (fun q => !q.departing)).length ≤ 4
    ∧ (s.orders.positions.filter (fun q => !q.fresh)).length ≤ 4
  ascending : ((s.orders.positions.filter (fun q => !q.departing)).map (fun q => q.entry)).Pairwise (· < ·)
  fresh : ∀ q ∈ s.orders.positions, q.fresh = true →
    q.queued = false ∧ q.deferred = none ∧ s.anyDeparting = true ∧ ∀ l, s.orders.slot = some l → l.pid ≠ q.pid

/-- No output queue holds more than 12 telegrams unless its own class alone does (R12, R15). -/
def PortState.bounded (q : PortState) : Prop := q.waiting ≤ Config.queueSize ∨ q.fwd = []

/-- A finite run of steps. -/
inductive Runs : State → State → Prop where
  | refl (s : State) : Runs s s
  | step {s t u : State} (h : step s = .next t) (r : Runs t u) : Runs s u

end Sys2Proof.Machine
end

