-- ==== Sys2Proof/Certificates/Slice0/Obligations.lean ====
section
/-!
DEFINITION. The statements for the provers, in the order of OBLIGATIONS.json: the machine as a whole, encodings, the
blocks' computations, then every command with what it completes to. A step's reports are in `Reported`, an order's
reply in `Answered` and `Handed` (Safety.lean): that a change of status is reported once, at a command's end and before
a short order's reply, and that the reply positions settle at the command's end, are the model's choices (log entries 7
and 8) in every statement that uses one of the three.
-/

open Sys2Proof Sys2Proof.Machine

/-! ### The machine as a whole -/

/-- A step takes the command at the front of the queue and does what exec says, with the rest of the queue. -/
def Obligations.StepRunsFrontCommand : Prop :=
  ∀ (c : Instr) (rest : List Instr) (s : State),
    s.pending = c :: rest → step s = exec c { s with pending := rest }

/-- With no command waiting, a running part puts the deadlines that link time has reached into its queue, each when
link time equals it (R1), and otherwise link time advances by one; without supply nothing changes. That deadlines
become commands, and time a step, is the model's choice (log entry 1). -/
def Obligations.IdleStepIsTime : Prop :=
  ∀ s : State, s.pending = [] →
    (s.phase = .running → s.dueCommands ≠ [] → step s = .next { s with pending := s.dueCommands })
    ∧ (s.phase = .running → s.dueCommands = [] → step s = .next { s with time := s.time + 1 })
    ∧ (s.phase = .starting → step s = .next { s with time := s.time + 1 })
    ∧ (s.phase = .off → step s = .next s)
    ∧ (∀ i, .staleExpiry i ∈ s.dueCommands ↔
        ∃ x ∈ s.sources, x.entry = i.val ∧ x.freshness = .fresh ∧ x.deadline = some s.time)
    ∧ (.demandLossExpiry ∈ s.dueCommands ↔ s.control.timer = .waiting s.time)
    ∧ (.demandLossRepeat ∈ s.dueCommands ↔ s.control.timer = .repeating s.time)
    ∧ (.adhesionRecoveryStep ∈ s.dueCommands ↔ s.slide.recoveryDeadline = s.time)
    ∧ (∀ k, .ventDeadline k ∈ s.dueCommands ↔
        (s.builder.trucks.get k).action = .vent ∧ (s.builder.trucks.get k).vent = some s.time)
    ∧ (∀ k, .supervisionDeadline k ∈ s.dueCommands ↔ (s.builder.supervision.get k).state = .armed s.time)
    ∧ (.settleEnd ∈ s.dueCommands ↔
        ∃ c, s.builder.calibration = some c ∧ c.phase = .settle ∧ c.since + 500 = s.time)
    ∧ (.calTimeout ∈ s.dueCommands ↔
        ∃ c, s.builder.calibration = some c ∧ c.phase = .step ∧ c.since + 5000 = s.time)
    ∧ (.statusDeadline ∈ s.dueCommands ↔ s.orders.statusDeadline = some s.time)

/-- No command touches the commands that wait, which outlive a reset too, and none takes link time (the model's choices,
log entries 27 and 1). But for the resets and the loss of supply, none moves link time or the restart count, and only
the start-up load begins the running phase. And only the resets, a loss of supply, and the ends of commits and erases
change what the record store's memory reads: every other command leaves every page and every retirement mark as they
were. -/
def Obligations.CommandsKeepQueueAndTime : Prop :=
  ∀ (c : Instr) (s t : State), exec c s = .next t →
    t.pending = s.pending
    ∧ (isReset c = false → t.time = s.time ∧ t.orders.restarts = s.orders.restarts
        ∧ (c ≠ .startUpLoad → t.phase = s.phase))
    ∧ (endsMemoryWork c = false →
        (∀ a, t.store.read a = s.store.read a) ∧ t.store.pages = s.store.pages
          ∧ t.store.retireMarks = s.store.retireMarks)

/-- The memory of the record store keeps its canonical form at every step, from every state: addresses strictly rising
and no listed page that reads erased. -/
def Obligations.StepKeepsMemoryCanonical : Prop :=
  ∀ s t : State, s.memoryWf = true → step s = .next t → t.memoryWf = true

/-- Every step keeps the sizes of the part's stores and the range of the heat index: at most 250 samples in the ring
(R154), 4 pages in the commit queue (R173), 8 pins (R184), 8 triggers in the list of a capture (R160), 1 to 10 samples or
at most 8 list entries on a waiting page (R163), and H at most 999,999 kJ (R52). The directory's bound of 48 entries is
in StepKeepsStoreSound. -/
def Obligations.StepKeepsSizes : Prop :=
  ∀ s t : State, SizesSound s → step s = .next t → SizesSound t

/-- Every step keeps the queues and the reply positions sound (R12, R14, R15, R190, R193): at most 12 telegrams wait for
a port, of the part's own at most 6, at most one BRAKE_CMD and one PART_STATUS, and at most one REPLY for each reply
position, which is QUEUED; the positions of ORDER records stand in ascending order of their entries, at most four may have
replies, and a new one has none while a departing one exists.
From every state whatever, a queue of more than 12 holds no forwarded telegram. -/
def Obligations.StepKeepsQueueBound : Prop :=
  (∀ s t : State, TablesSound s → QueuesSound s → step s = .next t → QueuesSound t)
  ∧ ∀ s t : State, (∀ p, (s.port p).bounded) → step s = .next t → ∀ p, (t.port p).bounded

/-- Every step keeps the table sets sound: the active set passes every check and has its own CRC, and so does a set that
may become active without a check; a lag being measured lies within what the TRUCK check admits (R126, R133, R137, R138,
R142). -/
def Obligations.StepKeepsTableChecked : Prop :=
  ∀ s t : State, TablesSound s → step s = .next t → TablesSound t

/-- Every step keeps the slide monitor's bounds: no limit exceeds its axle's unlimited value, a limit in ADHERED is that
value, and the adhesion estimate lies from a_min to a_max (R90, R91, R92, R106). -/
def Obligations.StepKeepsSlideBounds : Prop :=
  ∀ s t : State, TablesSound s → SlideSound s → step s = .next t → SlideSound t

/-- Every step keeps modes and part state in agreement: outside MAINTENANCE no channel is MANUAL or CALIBRATE (R26),
CALIBRATE is the mode of the truck in calibration, MAINTENANCE and a calibration end with motion (R28, R127), the electric
allocations are 0 in FALLBACK and all are 0 in STANDBY, where both actions are NORMAL (R66, R110, R116), and the
long-order slot is occupied exactly while its order's owner is at work (R192). An emission of a step that ends in
FALLBACK carries no electric effort. -/
def Obligations.StepKeepsChannelModes : Prop :=
  ∀ s t : State, TablesSound s → ModesSound s → step s = .next t →
    ModesSound t
    ∧ (t.control.partState = .fallback → t.builder.last ≠ s.builder.last → ∀ a, t.builder.last.cmd.efforts.get a = 0)

/-- Every step keeps the record store's tables sound: at most one bank is WRITING (R171); the directory holds at most 48
records, each once, newest first, below the next number, at most one CAPTURING, that of the capture in progress or one
whose CLOSE page waits (R177, R178); and the recorder is CAPTURING exactly while a capture is in progress. The memory may
hold any pages, and the first part of a scan reads each bank's last valid page only (R179): that no page carries a higher
number, as pages committed in rising order leave it, is asked of a state whose scan still runs. -/
def Obligations.StepKeepsStoreSound : Prop :=
  ∀ s t : State, TablesSound s → SizesSound s → StoreSound s → step s = .next t →
    (t.store.scan = .scanning → ∀ e ∈ t.store.scannedEntries, e.incident < t.store.nextIncident) → StoreSound t

/-- The state right after a reset meets every invariant, and under whatever set is loaded holds the values that the
chapters give (R18, R20, R44, R61, R83, R108, R131, R151, R169, R187, R199): the source table has exactly the records of
the set's entries with a role, and each ORDER record one reply position. At power-on of a part as it leaves the factory
the set is the factory set with number 0, which passes every check (R138, R145), and the store holds no page, every bank
ERASED, the next incident number 1 and the scan to come. That the part stands in the starting phase until the load, with
the factory set in place, and that no page of the store is written as it leaves the factory, are the model's choices
(log entry 2). -/
def Obligations.ResetHoldsItsValues : Prop :=
  State.reset.memoryWf = true ∧ SizesSound State.reset ∧ TablesSound State.reset ∧ SlideSound State.reset
  ∧ ModesSound State.reset ∧ StoreSound State.reset ∧ QueuesSound State.reset
  ∧ (∀ p, (State.reset.port p).bounded) ∧ State.reset.pending = [] ∧ State.reset.phase = .starting
  ∧ State.reset.tbl = factorySet ∧ factorySet.check = none ∧ State.reset.tables.active.number = 0
  ∧ State.reset.tables.selection = 0 ∧ State.reset.tables.slots = ⟨.empty, .empty, .empty⟩
  ∧ State.reset.sources.map (fun x => (x.entry, x.role))
      = [(0, .demand), (1, .order), (2, .speed), (3, .inverterA), (4, .inverterB), (5, .pressure)]
  ∧ State.reset.orders.positions.map (fun q => q.entry) = [1]
  ∧ (let u := State.reset.store
    u.pages = [] ∧ u.retireMarks = [] ∧ u.queue = [] ∧ u.directory = [] ∧ u.nextIncident = 1 ∧ u.pins = []
    ∧ u.cursor = none ∧ u.scan = .scanning ∧ u.op = .idle ∧ u.erases = [] ∧ u.job = none
    ∧ ∀ i < 16, u.bank i = ⟨.erased, 0, 0, 0⟩)
  ∧ ∀ (pending : List Instr) (phase : Phase) (t : TableSet) (number : U16) (slots : UserSlots) (selection : Fin 4)
      (store : Store) (restarts : Nat),
    let s := State.atReset pending phase t number slots selection store restarts
    s.time = 0
    ∧ (∀ p, (s.port p).counts = ⟨0, 0, 0⟩ ∧ (s.port p).own = [] ∧ (s.port p).fwd = [] ∧ (s.port p).tx = none
        ∧ (s.port p).cmdSeq = 0 ∧ (s.port p).replySeq = 0)
    ∧ (∀ i k, i < 32 → (t.entry i).roled = true → (t.entry i).key = some k →
        ∃ x ∈ s.sources, x.entry = i ∧ x.key = k ∧ x.role = (t.entry i).roleOf)
    ∧ (∀ x ∈ s.sources, x.entry < 32 ∧ (t.entry x.entry).roled = true ∧ (t.entry x.entry).key = some x.key
        ∧ x.role = (t.entry x.entry).roleOf)
    ∧ (s.sources.map (fun x => x.entry)).Pairwise (· < ·)
    ∧ (∀ x ∈ s.sources, x.freshness = .never ∧ x.lastSeq = none ∧ x.lastArrival = none ∧ x.deadline = none
        ∧ x.duplicates = 0 ∧ x.gaps = 0 ∧ x.contentErrors = 0)
    ∧ s.control.partState = .standby ∧ s.control.demand = none ∧ s.control.goodCount = 0
    ∧ s.control.timer = .stopped
    ∧ (∀ a, s.control.axles.get a = ⟨if t.present a then .auto else .off, 0⟩)
    ∧ (∀ k, s.control.trucks.get k = ⟨.auto, 0⟩)
    ∧ (∀ a, s.capability.inverters.get a = ⟨0, 0, false⟩) ∧ s.capability.heat = 0 ∧ s.capability.remIn = 0
    ∧ s.capability.remCool = 0 ∧ s.capability.thermal = .normal
    ∧ (∀ a, s.blender.alloc.efforts.get a = 0)
    ∧ (∀ k, s.blender.alloc.air.get k = 0 ∧ s.blender.alloc.pressures.get k = 0)
    ∧ s.blender.record = none ∧ s.blender.number = 0 ∧ s.blender.shortRun = 0
    ∧ s.slide.vref = 0 ∧ s.slide.lastSampleTime = none ∧ s.slide.aEst = t.adhesion.aStart.toNat
    ∧ s.slide.recoveryDeadline = 1000
    ∧ (∀ a, s.slide.axles.get a = ⟨.adhered, t.unlimited a, 0, 0, 0, none, none, none⟩
        ∧ s.slide.attention.get a = false)
    ∧ s.builder.last.cmd.inControl = false ∧ s.builder.last.cmd.seq = 0 ∧ s.builder.last.time = 0
    ∧ (∀ a, s.builder.last.cmd.efforts.get a = 0 ∧ s.builder.copy.get a = .adhered)
    ∧ (∀ k, s.builder.last.cmd.pressures.get k = 0 ∧ s.builder.last.cmd.actions.get k = .normal
        ∧ s.builder.trucks.get k = ⟨.normal, none, none⟩ ∧ s.builder.feedback.get k = .absent
        ∧ s.builder.supervision.get k = ⟨.suspended, 0⟩)
    ∧ s.builder.calibration = none
    ∧ s.tables.active = ⟨t, number, t.crc⟩ ∧ s.tables.staging = .idle ∧ s.tables.save = none
    ∧ s.capture.counter = 0 ∧ s.capture.ring = [] ∧ s.capture.recorder = .armed ∧ s.capture.record = none
    ∧ s.capture.missedDisarmed = 0 ∧ s.capture.missedFull = 0
    ∧ s.tables.slots = slots ∧ s.tables.selection = selection ∧ s.store = store ∧ s.pending = pending ∧ s.phase = phase
    ∧ s.orders.slot = none ∧ s.orders.faults = 0 ∧ s.orders.restarts = restarts ∧ s.orders.restarting = false
    ∧ s.orders.positions.map (fun q => (q.entry, q.key))
        = (s.sources.filter (fun x => x.role == .order)).map (fun x => (x.entry, x.key))
    ∧ (∀ q ∈ s.orders.positions, q.queued = false ∧ q.held = none ∧ q.deferred = none ∧ q.discards = 0
        ∧ q.departing = false)

/-- Reclaim (R176). With fewer than 2 banks ready, the scan done and a FILLED bank without a page of a protected record,
the one with the lowest fill sequence is chosen, the lower-numbered of equals (the model's choice, log entry 48): the
entries of the records with a page there go with their pins, and a cursor on one of them; the bank becomes ERASING and
joins the waiting erases; and reclaim is judged again. Where none may be chosen, while the scan runs (R180) or with 2
banks ready, nothing changes. So a bank newly ERASING was FILLED without a protected page, and protected records keep
their entries and their pages. A record is protected as R175 states; that a bank whose page is being committed counts as
holding it is the model's choice (log entry 20). -/
def Obligations.ReclaimSparesProtected : Prop :=
  ∀ (t : Store) (k : Nat),
    let u := t.judgeReclaim k
    let free := fun i => i < 16 ∧ t.bankIs .filled i = true ∧ t.bankProtected k i = false
    let gone := fun i => (t.directory.filter (fun e => e.banks.contains i)).map DirEntry.incident
    (t.scan = .scanning ∨ 2 ≤ t.roomBanks ∨ (∀ i, ¬free i) → u = t)
    ∧ (t.scan = .done → t.roomBanks < 2 → ∀ i, free i →
        (∀ j, free j → (t.bank i).fillSeq < (t.bank j).fillSeq ∨ (t.bank i).fillSeq = (t.bank j).fillSeq ∧ i ≤ j) →
        u = Store.judgeReclaim
          { t with
            directory := t.directory.filter (fun e => !e.banks.contains i)
            pins := t.pins.filter (fun n => !(gone i).contains n)
            cursor := (match t.cursor with
              | some c => if (gone i).contains c.incident then none else some c
              | none => none)
            banks := t.banks.set i ⟨.erasing, (t.bank i).fillSeq, (t.bank i).mismatch, 0⟩
            erases := t.erases ++ [i] } k)
    ∧ u.pages = t.pages ∧ (∀ e ∈ t.directory, t.isProtected k e = true → e ∈ u.directory)
    ∧ (∀ i, u.bankIs .erasing i = true → t.bankIs .erasing i = false → free i)
    ∧ (∀ e, t.isProtected k e = true ↔
        e.state = .capturing ∨ (∃ q ∈ t.queue, q.page.incident = e.incident) ∨ e.incident ∈ t.pins
          ∨ ∃ x ∈ (t.directory.filter (fun y => y.state != .capturing)).take k, x.incident = e.incident)
    ∧ ∀ i, t.bankProtected k i = true ↔
        (∃ e ∈ t.directory, t.isProtected k e = true ∧ i ∈ e.banks) ∨ ∃ p, t.op = .commit ⟨i, p⟩

/-! ### Encodings -/

/-- What a sender forms, a receiver reads: every telegram from a node other than 63 with at most 64 payload bytes has
at most 71 bytes and passes the checks of R4 as itself; what passes them is sent on byte for byte as received (R3);
and the payloads of DEMAND, AXLE_SPEED, EFFORT_REPORT and CYL_PRESSURE have 3, 15, 15 and 5 bytes and read back as
themselves (section 1.2). What the part sends (R3, R191): an own telegram has its kind, 30h, 31h or 41h, its payload
of at most 64 bytes and the check over it, and reads back as itself; a REPLY's payload is tag, result, fragment byte
with bit 7 on the last, and 61 bytes of its data or, in the last, what remains, so that a reply's telegrams carry all
its data in order; one without data is one telegram, and one of CLOSE data has 61 and 40 bytes (section 10.2.1). A
READ_RING reply carries the sample's 58 bytes (R167), a readout the item (R182), and READ_TABLE its items' LOAD forms
(R144); that these stand last is the model's deduction from the order in which the rules list the fields, and the
bytes of the fields before them are its free value (log entry 4). -/
def Obligations.TelegramsRoundTrip : Prop :=
  (∀ (dest source kind seq : U8) (payload : Bytes), source ≠ 63 → payload.length ≤ 64 →
    (Telegram.form dest source kind seq payload).bytes.length ≤ 71
    ∧ parseTelegram (Telegram.form dest source kind seq payload).bytes
        = some (Telegram.form dest source kind seq payload))
  ∧ (∀ (b : Bytes) (t : Telegram), parseTelegram b = some t → t.bytes = b)
  ∧ (∀ p : DemandPayload, p.bytes.length = 3 ∧ DemandPayload.ofBytes p.bytes = p)
  ∧ (∀ p : SpeedPayload, p.bytes.length = 15 ∧ SpeedPayload.ofBytes p.bytes = p)
  ∧ (∀ p : EffortPayload, p.bytes.length = 15 ∧ EffortPayload.ofBytes p.bytes = p)
  ∧ (∀ p : PressurePayload, p.bytes.length = 5 ∧ PressurePayload.ofBytes p.bytes = p)
  ∧ (∀ (dest source seq : U8) (x : OwnTelegram), source ≠ 63 →
      let sent := (Transmission.own dest source seq x).telegram
      sent.dest = dest ∧ sent.source = source ∧ sent.seq = seq ∧ sent.payload.length ≤ 64
      ∧ sent.kind = (match x with
          | .brakeCmd _ => 0x30
          | .partStatus _ => 0x31
          | .reply _ => 0x41)
      ∧ parseTelegram sent.bytes = some sent)
  ∧ (∀ (q : PortState) (t : Telegram), q.tx = some (.forwarded t) → q.lineBytes = some t.bytes)
  ∧ (∀ (fill offset : Nat) (x : Sample), ∃ fields,
      (ReplyData.ringSample fill offset x).bytes = fields ++ x.bytes ∧ x.bytes.length = 58)
  ∧ (∀ (n : Nat) (a : PageAddr) (b : Bytes), ∃ fields, (ReplyData.item n a b).bytes = fields ++ b)
  ∧ (∀ (i : SetIdentity) (b : Bytes), ∃ fields, (ReplyData.items i b).bytes = fields ++ b)
  ∧ (∀ (pid : Nat) (r : Reply),
      let part := fun n => (ReplyFragment.payload ⟨pid, r, n⟩).drop 3
      1 ≤ r.data.fragments
      ∧ ((List.range r.data.fragments).map part).flatten = r.data.bytes
      ∧ (∀ n, n + 1 < r.data.fragments → (part n).length = 61)
      ∧ (part (r.data.fragments - 1)).length ≤ 61
      ∧ (part (r.data.fragments - 1) = [] → r.data.bytes = [])
      ∧ (r.data = .empty → r.data.fragments = 1 ∧ r.data.bytes = [])
      ∧ ∀ i a b, b.length = 89 → r.data = .item i a b →
          r.data.fragments = 2 ∧ (part 0).length = 61 ∧ (part 1).length = 40)
  ∧ ∀ (q : PortState) (dest source seq : U8) (f : ReplyFragment), q.tx = some (.own dest source seq (.reply f)) →
      f.number < 128 →
      let d := f.reply.data.bytes
      let last : U8 := if f.reply.data.fragments ≤ f.number + 1 then 0x80 else 0
      q.lineBytes
        = some (Telegram.form dest source 0x41 seq
            ([f.reply.tag, BitVec.ofNat 8 f.reply.result.code, last ||| BitVec.ofNat 8 f.number]
              ++ (d.drop (61 * f.number)).take 61)).bytes

/-- LOAD forms (R132): in a set with its 32 entries, 16 breakpoints and 12 triggers every item has the size of its
index, an item written from its own form changes nothing, an item written from bytes of its size reads as those bytes,
and no other item changes. Pages (section 9.1.1, R170, R181): a page as the capture unit builds it (at most 10 samples,
at most 8 list entries) has 590 bytes, reads valid with its header's fields, also after its next code is programmed, and
every item on it reads back as its bytes: OPEN data of 20 bytes, samples of 58, CLOSE data of 89. -/
def Obligations.StoredFormsReadBack : Prop :=
  (∀ (t : TableSet) (x : Sect) (i : Nat), t.entries.length = 32 → t.breakpoints.length = 16 → t.triggers.length = 12 →
    i < x.items →
    (t.itemBytes x i).length = x.itemSize i ∧ t.writeItem x i (t.itemBytes x i) = t
    ∧ ∀ b : Bytes, b.length = x.itemSize i →
        (t.writeItem x i b).itemBytes x i = b
        ∧ ∀ (y : Sect) (j : Nat), j < y.items → (y, j) ≠ (x, i) → (t.writeItem x i b).itemBytes y j = t.itemBytes y j)
  ∧ ∀ (p : BuiltPage) (code : U8), 1 ≤ p.incident → p.incident ≤ 4294967295 →
    (match p.body with
      | .opening _ => True
      | .samples l => l.length ≤ 10
      | .closing d => d.extras.length ≤ 8) →
    p.bytes.length = 590
    ∧ ∀ b ∈ [p.bytes, p.bytes.set 9 code],
        pageClass b = .valid ∧ pageIncident b = p.incident ∧ pageSeq b = p.seq % 256
        ∧ (match p.body with
            | .opening d => pageKind b = 1 ∧ d.bytes.length = 20 ∧ itemOn b 0 0 = some d.bytes
            | .samples l => pageKind b = 2 ∧ pageSamples b = l.length
                ∧ ∀ (k counted : Nat) (x : Sample), l[k]? = some x →
                    x.bytes.length = 58 ∧ itemOn b counted (counted + k + 1) = some x.bytes
            | .closing d => pageKind b = 3 ∧ d.bytes.length = 89
                ∧ ∀ counted : Nat, itemOn b counted (counted + 1) = some d.bytes)

/-! ### Consistency checks -/

/-- The consistency checks (R138), of a set with its 32 entries, 16 breakpoints and 12 triggers: the conditions in the
order of the table and of the items, each with the result it fails with. A set passes when all hold, and otherwise the
first that fails gives the result. Two points are the model's choice (log entry 12): of several equal pairs of keys the
one whose higher-numbered entry is lowest is the first found, and the conditions of CURVE stand with the item they speak
of, breakpoint by breakpoint, then the per-axle block as item 16. -/
def Obligations.ChecksJudged : Prop :=
  ∀ t : TableSet, t.entries.length = 32 → t.breakpoints.length = 16 → t.triggers.length = 12 →
    let e := t.entry
    let used := fun i => (e i).source.toNat ≤ 62
    let count := fun r => ((List.range 32).filter (fun i => (e i).source.toNat ≤ 62 && (e i).roleOf == r)).length
    let v := fun i => (t.breakpoint i).speed.toNat
    let fitted := fun a => t.axleBlock.presence.getLsbD (Axle.bit a) = true
    let within := fun (lo x hi : Nat) => lo ≤ x ∧ x ≤ hi
    let h := t.header
    let ad := t.adhesion
    let truck := fun (k : TruckEntry) =>
      within 100 k.gain.toNat 2000 ∧ k.pOff.toNat < k.pMax.toNat ∧ k.pMax.toNat ≤ 450 ∧ k.fallback.toNat ≤ k.pMax.toNat
      ∧ k.pOff.toNat < k.pCal.toNat ∧ k.pCal.toNat ≤ k.pMax.toNat ∧ k.lag.toNat ≤ 5000 ∧ k.margin.toNat ≤ 2000
      ∧ within 500 k.ventMax.toNat 10000
    let n := t.axleBlock.count.toNat
    let rows : List (CheckFailure × Prop) :=
      (List.range 32).map (fun i =>
        (⟨.role, 1, i⟩, used i → (e i).port.toNat ≤ 1 ∧ (e i).action.toNat ≤ 3 ∧ (e i).role.toNat ≤ 6))
      ++ [(⟨.role, 1, 255⟩, count .demand = 1 ∧ count .speed = 1 ∧ count .inverterA = 1 ∧ count .inverterB = 1
            ∧ count .pressure = 1 ∧ within 1 (count .order) 4),
          (⟨.role, 1, 32⟩, h.node.toNat ≤ 62 ∧ h.defaultAction.toNat ≤ 1 ∧ within 100 h.statusPeriod.toNat 1000)]
      ++ (List.range 32).map (fun i =>
        (⟨.key, 1, i⟩, ∀ j < i, used i → used j →
          ¬((e j).port = (e i).port ∧ (e j).source = (e i).source ∧ (e j).kind = (e i).kind)))
      ++ (List.range (min n 16)).map (fun i =>
        (⟨.curve, 2, i⟩, (i = 0 → v 0 = 0) ∧ (1 ≤ i → v (i - 1) < v i) ∧ v i ≤ 16000
          ∧ (t.breakpoint i).effort.toNat ≤ t.smallestRating))
      ++ [(⟨.curve, 2, 16⟩, within 2 n 16 ∧ ∀ a, fitted a → within 1 (t.axleBlock.ratings.get a).toNat 1000),
          (⟨.truck, 3, 0⟩, truck t.trucks.a), (⟨.truck, 3, 1⟩, truck t.trucks.b),
          (⟨.adh, 4, 0⟩, within 1 ad.dRef.toNat 10000 ∧ within 1 ad.aRef.toNat 10000 ∧ within 1 ad.vFloor.toNat 16000
            ∧ within 1 ad.thSuspect.toNat 1000 ∧ within 1 ad.thSlide.toNat 1000 ∧ ad.thRecover.toNat ≤ 999
            ∧ within 1 ad.cAbs.toNat 16000 ∧ 1 ≤ ad.nRec.toNat ∧ 1 ≤ ad.nLost.toNat ∧ ad.vLockAxle.toNat ≤ 16000
            ∧ ad.vLockRef.toNat ≤ 16000 ∧ ad.reduceNum.toNat ≤ 15 ∧ within 1 ad.restoreStep.toNat 1000
            ∧ ad.stepDown.toNat ≤ 400 ∧ ad.stepUp.toNat ≤ 400 ∧ ad.axleLoad.toNat ≤ 8000
            ∧ ad.thRecover.toNat < ad.thSuspect.toNat ∧ ad.thSuspect.toNat < ad.thSlide.toNat
            ∧ ad.aMin.toNat ≤ ad.aStart.toNat ∧ ad.aStart.toNat ≤ ad.aMax.toNat ∧ ad.aMax.toNat ≤ 400),
          (⟨.therm, 5, 0⟩, t.thermal.pCool.toNat ≤ 20000 ∧ t.thermal.hReset.toNat < t.thermal.hDerate.toNat
            ∧ t.thermal.hDerate.toNat < t.thermal.hTrip.toNat ∧ t.thermal.hTrip.toNat ≤ 999999),
          (⟨.blend, 6, 0⟩, t.blend.dMax.toNat ≤ 8000 ∧ t.blend.dEmerg.toNat ≤ 8000 ∧ within 1 t.blend.eUp.toNat 1000
            ∧ within 30 t.blend.tDem.toNat 500 ∧ 1 ≤ t.blend.nShort.toNat ∧ t.blend.elecEmerg.toNat ≤ 1)]
      ++ (List.range 12).map (fun i =>
        let g := t.triggers.getD i ⟨0, 0, 0, 0⟩
        (⟨.trig, 7, i⟩, g.enabled.toNat ≤ 1 ∧ within 1 g.cls.toNat 3 ∧ g.pre.toNat ≤ 250 ∧ g.post.toNat ≤ 1000))
      ++ [(⟨.recorder, 8, 0⟩, t.recorder.retention.toNat ∈ [0, 1, 2, 4, 8, 16] ∧ t.recorder.autoRearm.toNat ≤ 1)]
    (t.check = none ↔ ∀ r ∈ rows, r.2)
    ∧ (∀ f, t.check = some f ↔
        ∃ before r after, rows = before ++ r :: after ∧ (∀ x ∈ before, x.2) ∧ ¬r.2 ∧ r.1 = f)
    ∧ (∀ a, fitted a → t.smallestRating ≤ (t.axleBlock.ratings.get a).toNat)
    ∧ ((∃ a, fitted a) → ∃ a, fitted a ∧ t.smallestRating = (t.axleBlock.ratings.get a).toNat)
    ∧ ((∀ a, ¬fitted a) → t.smallestRating = 1000)

/-! ### Electric capability and grid heat -/

/-- The curve value of a set that passes the CURVE check (R46): the first effort at or below the first breakpoint, the
last at or above the last, and between two the interpolation with its correction rounded toward zero, which lies
between their efforts; exactly the breakpoint's effort at a breakpoint; never above the smallest fitted rating; it
depends on the speed and the active curve alone, and the blender gets it at the current Vref. -/
def Obligations.CurveInterpolates : Prop :=
  ∀ t : TableSet, t.checkCurve = none →
    let n := t.curveCount
    let v := fun i => (t.breakpoint i).speed.toNat
    let e := fun i => (t.breakpoint i).effort.toNat
    (∀ x, x ≤ v 0 → t.curve x = e 0)
    ∧ (∀ x, v (n - 1) ≤ x → t.curve x = e (n - 1))
    ∧ (∀ k x, k + 1 < n → v k ≤ x → x < v (k + 1) →
        (t.curve x : Int)
          = (e k : Int) + Int.tdiv (((e (k + 1) : Int) - (e k : Int)) * ((x : Int) - (v k : Int)))
              ((v (k + 1) : Int) - (v k : Int))
        ∧ min (e k) (e (k + 1)) ≤ t.curve x ∧ t.curve x ≤ max (e k) (e (k + 1)))
    ∧ (∀ k, k < n → t.curve (v k) = e k)
    ∧ (∀ x, t.curve x ≤ t.smallestRating)
    ∧ (∀ u : TableSet, u.curveCount = n → (∀ i, i < n → u.breakpoint i = t.breakpoint i) → ∀ x, u.curve x = t.curve x)
    ∧ (∀ s : State, s.tbl = t → s.deratedCurve = t.curve s.slide.vref * s.derateFactor / 1024)

/-- A heat update (R54, R55): E_sum over the present axles, achieved effort where the inverter's source is FRESH and the
effort last emitted otherwise; H takes the sum kept within 0 to 999,999, with new remainders unless the sum is below 0.
The derate factor f by H, thresholds and state (R56), and the thermal state after every heat update (R57), with a trip left
for NORMAL with f at once 1024. Entry to DERATE sets its flag, entry to TRIP its flag and trigger, the flags stay under
CLEAR_FAULTS while their conditions hold (R58), and nothing else changes. -/
def Obligations.HeatAndThermal : Prop :=
  (∀ (r : ThermalRec) (st : Thermal) (h : Nat), r.ok = true →
    (st = .trip → derate r st h = 0)
    ∧ (st ≠ .trip → h ≤ r.hDerate.toNat → derate r st h = 1024)
    ∧ (st ≠ .trip → r.hDerate.toNat < h → h < r.hTrip.toNat →
        derate r st h = 1024 * (r.hTrip.toNat - h) / (r.hTrip.toNat - r.hDerate.toNat) ∧ derate r st h ≤ 1023)
    ∧ (st ≠ .trip → r.hTrip.toNat ≤ h → derate r st h = 0)
    ∧ (st = .trip → h ≤ r.hReset.toNat → thermalNext r st h = .normal ∧ derate r .normal h = 1024)
    ∧ (st = .trip → r.hReset.toNat < h → thermalNext r st h = .trip)
    ∧ (st ≠ .trip → r.hTrip.toNat ≤ h → thermalNext r st h = .trip)
    ∧ (st ≠ .trip → r.hDerate.toNat < h → h < r.hTrip.toNat → thermalNext r st h = .derate)
    ∧ (st ≠ .trip → h ≤ r.hDerate.toNat → thermalNext r st h = .normal))
  ∧ (∀ s : State, s.derateFactor = derate s.tbl.thermal s.capability.thermal s.capability.heat)
  ∧ (∀ (s : State) (dt : Nat),
      let t := s.heatUpdate dt
      t.capability.thermal = thermalNext s.tbl.thermal s.capability.thermal t.capability.heat
      ∧ t.flag .thermalDerate
          = (s.flag .thermalDerate || (s.capability.thermal != .derate && t.capability.thermal == .derate))
      ∧ t.flag .thermalTrip
          = (s.flag .thermalTrip || (s.capability.thermal != .trip && t.capability.thermal == .trip))
      ∧ (let u := { s with capability := t.capability }
        let flagged := fun f => { u with orders := { s.orders with faults := raiseIn s.orders.faults f } }
        (s.capability.thermal ≠ .derate → t.capability.thermal = .derate → t = flagged .thermalDerate)
        ∧ (s.capability.thermal ≠ .trip → t.capability.thermal = .trip → t = (flagged .thermalTrip).takeTrigger .thermalTrip)
        ∧ (t.capability.thermal = s.capability.thermal ∨ t.capability.thermal = .normal → t = u)))
  ∧ (∀ (s : State) (classes : U8),
      let kept := fun (f : Flag) (holds : Prop) =>
        flagIn (s.clearedFaults classes) f = true ↔ s.flag f = true ∧ (classes.getLsbD FaultClass.thermal.bit = false ∨ holds)
      kept .thermalDerate (s.capability.thermal ≠ .normal) ∧ kept .thermalTrip (s.capability.thermal = .trip))
  ∧ ∀ (s : State) (dt : Nat),
    let c := s.capability
    let eSum := (Axle.all.map (fun a =>
      if s.tbl.present a = false then 0
      else if s.roleFreshness (inverterRole a.inverter) = .fresh then (c.inverters.get a).achieved
      else s.builder.last.cmd.efforts.get a)).sum
    let heatNum := eSum * s.slide.vref * dt + c.remIn
    let coolNum := s.tbl.thermal.pCool.toNat * dt + c.remCool
    let total : Int := (c.heat : Int) + (heatNum / 3600000 : Nat) - (coolNum / 1000 : Nat)
    let d := (s.heatUpdate dt).capability
    d.inverters = c.inverters
    ∧ (0 ≤ total → total ≤ 999999 →
        (d.heat : Int) = total ∧ d.remIn = heatNum % 3600000 ∧ d.remCool = coolNum % 1000)
    ∧ (999999 < total → d.heat = 999999 ∧ d.remIn = heatNum % 3600000 ∧ d.remCool = coolNum % 1000)
    ∧ (total < 0 → d.heat = 0 ∧ d.remIn = c.remIn ∧ d.remCool = c.remCool)

/-! ### The blending computation -/

/-- Stage 5 (R74, R75): the allocations add up to the smaller of the target and the sum of the effective ceilings, and
there is one share such that an axle whose ceiling does not exceed it gets its ceiling, and every other axle gets the
share, or one count more if it is among the lowest-numbered of them, as many as the remainder counts. Stages 6 and 7 (R69,
R76, R77, R73): the air target placed among the AUTO trucks, half to each with the odd count to A and the excess over a
ceiling to the other; and the pressure of an allocation, the least whole kPa whose air effort reaches it, which exceeds it
by less than one kPa's worth and gives back the pressure of an air effort exactly. -/
def Obligations.TargetsPlaced : Prop :=
  (∀ (target : Nat) (c : PerAxle Nat),
    let x := waterFill target c
    x.sum = min target c.sum
    ∧ (∀ a, x.get a ≤ c.get a)
    ∧ ∃ share extra : Nat,
        (∀ a, c.get a ≤ share → x.get a = c.get a)
        ∧ (∀ a, share < c.get a →
            x.get a = share
              + (if (Axle.all.filter (fun b => b.bit < a.bit && share < c.get b)).length < extra then 1 else 0))
        ∧ (extra = 0 ∨ extra < (Axle.all.filter (fun b => share < c.get b)).length))
  ∧ (∀ (target ca cb : Nat) (autoA autoB : Bool),
    let x := Machine.placeAir target autoA autoB ca cb
    x.a + x.b = min target ((if autoA then ca else 0) + (if autoB then cb else 0))
    ∧ x.a ≤ (if autoA then ca else 0) ∧ x.b ≤ (if autoB then cb else 0)
    ∧ (autoA = true → autoB = true → (target + 1) / 2 ≤ ca → target / 2 ≤ cb →
        x.a = (target + 1) / 2 ∧ x.b = target / 2)
    ∧ (autoA = true → autoB = true → ca < (target + 1) / 2 → x.a = ca ∧ x.b = min (target - ca) cb)
    ∧ (autoA = true → autoB = true → (target + 1) / 2 ≤ ca → cb < target / 2 → x.b = cb ∧ x.a = min (target - cb) ca))
  ∧ ∀ (e : TruckEntry) (alloc cap p : Nat),
      (∀ q, e.airEffort q = if e.pOff.toNat ≤ q then (q - e.pOff.toNat) * e.gain.toNat / 100 else 0)
      ∧ e.pressureFor 0 cap = 0
      ∧ (0 < alloc → alloc ≤ e.airEffort cap →
          e.pressureFor alloc cap ≤ cap ∧ alloc ≤ e.airEffort (e.pressureFor alloc cap)
          ∧ (e.airEffort (e.pressureFor alloc cap) - alloc) * 100 < e.gain.toNat
          ∧ ∀ q, q < e.pressureFor alloc cap → e.airEffort q < alloc)
      ∧ (100 ≤ e.gain.toNat → e.pOff.toNat < p → p ≤ cap → e.pressureFor (e.airEffort p) cap = p)

/-- A blending computation (R64 to R80). A pending switch is made first, in ACTIVE with clamped demand 0 and EMERGENCY
clear, and in no other computation; all of the computation then runs on the state that the switch left, with a switch
mark. The ceilings are the least of their four terms, the effective ceilings keep the rise limit, M, R and the order are as
stated, and electric and air allocations and the shortfall add up to the residual. The efforts are the electric target
shared over the effective ceilings, the residual or, in EMERGENCY, what the air left of it, or none; the air allocations
are the air target placed among the AUTO trucks, what the electric brake left or, in EMERGENCY, the residual up to the air
ceilings (sharing and placing: TargetsPlaced). A fallback computation allocates no electric effort, and its AUTO trucks the
effort of their fallback pressure under their air ceilings. The record, the counts and the allocation table hold these
values; SHORTFALL is raised when the short-run count becomes equal to N_short, as it stands then (the model's choice, log
entry 39); and the emission follows. A hold pressure above P_max stands as P_cap (the model's choice, log entry 47). -/
def Obligations.ComputationAccounts : Prop :=
  let accounts := fun (s t : State) (mark : Bool) =>
    let mode := fun a => (s.control.axles.get a).mode
    let c := fun a =>
      if s.tbl.present a = true ∧ mode a ≠ .off then
        min (min (s.tbl.curve s.slide.vref * s.derateFactor / 1024)
            (s.tbl.adhesion.axleLoad.toNat * s.slide.aEst / 1000))
          (min (s.capability.inverters.get a).limit (s.slide.axles.get a).limit)
      else 0
    let ce := fun a =>
      if mode a = .auto then min (c a) (s.builder.last.cmd.efforts.get a + s.tbl.blend.eUp.toNat) else 0
    let ceSum := (PerAxle.ofFn ce).sum
    let cap := fun k =>
      match (s.builder.trucks.get k).action with
      | .hold => (s.builder.trucks.get k).hold.getD 0
      | .vent => (s.tbl.trucks.get k).pOff.toNat
      | _ => (s.tbl.trucks.get k).pMax.toNat
    let isAuto := fun k => decide ((s.control.trucks.get k).mode = .auto)
    let ceiling := fun k => (s.tbl.trucks.get k).airEffort (cap k)
    let room := fun k => if isAuto k then ceiling k else 0
    let placed := fun target => Machine.placeAir target (isAuto .a) (isAuto .b) (ceiling .a) (ceiling .b)
    let manualAxle := fun a => if mode a = .manual then min (s.control.axles.get a).manual (c a) else 0
    let manualTruck := fun k =>
      if (s.control.trucks.get k).mode = .manual then
        (s.tbl.trucks.get k).airEffort (min (s.control.trucks.get k).manual (cap k))
      else 0
    let m := (PerAxle.ofFn manualAxle).sum + manualTruck .a + manualTruck .b
    ∃ r : CompRecord, t.blender.record = some r ∧ t.tables = s.tables
      ∧ r.time = s.time ∧ r.partState = s.control.partState ∧ r.setNumber = s.tables.active.number
      ∧ r.switchMark = mark ∧ r.demand = s.demandEffort ∧ r.emergency = s.demandEmergency ∧ r.vref = s.slide.vref
      ∧ r.derate = s.derateFactor ∧ r.thermal = s.capability.thermal ∧ r.aEst = s.slide.aEst
      ∧ r.number = (if 4294967295 ≤ s.blender.number then 1 else s.blender.number + 1) ∧ t.blender.number = r.number
      ∧ r.short = decide (0 < r.shortfall)
      ∧ r.shortRun = (if 0 < r.shortfall then min 65535 (s.blender.shortRun + 1) else 0)
      ∧ t.blender.shortRun = r.shortRun
      ∧ (∀ a, r.axles.get a
            = ⟨mode a, c a, if mode a = .auto then some (ce a) else none,
                if mode a = .manual then some (manualAxle a) else none, t.blender.alloc.efforts.get a⟩
          ∧ t.blender.alloc.efforts.get a ≤ ce a ∧ t.blender.alloc.axleModes.get a = mode a)
      ∧ (∀ k, t.blender.alloc.air.get k ≤ room k
          ∧ t.blender.alloc.pressures.get k = (s.tbl.trucks.get k).pressureFor (t.blender.alloc.air.get k) (cap k)
          ∧ t.blender.alloc.pressures.get k ≤ cap k
          ∧ (let mode := (s.control.trucks.get k).mode
            let pressure := t.blender.alloc.pressures.get k
            r.trucks.get k
              = ⟨mode, (s.builder.trucks.get k).action, cap k, if mode = .auto then some (ceiling k) else none,
                  if mode = .manual then some (manualTruck k) else none, t.blender.alloc.air.get k, pressure,
                  (s.tbl.trucks.get k).airEffort pressure⟩
            ∧ t.blender.alloc.truckModes.get k = mode))
      ∧ (let u := { s with blender := t.blender }
        let reached : Prop := r.short = true ∧ r.shortRun = s.tbl.blend.nShort.toNat ∧ r.shortRun ≠ s.blender.shortRun
        (reached → t = (u.takeTrigger .shortfall).emitControl) ∧ (¬reached → t = u.emitControl))
      ∧ r.electric = t.blender.alloc.efforts.sum ∧ r.air = t.blender.alloc.air.a + t.blender.alloc.air.b
      ∧ (s.control.partState = .fallback →
          r.order = .fallback ∧ r.manual = 0 ∧ r.residual = 0 ∧ r.electric = 0 ∧ r.shortfall = 0
          ∧ (∀ a, t.blender.alloc.efforts.get a = 0)
          ∧ ∀ k, t.blender.alloc.air.get k
              = min ((s.tbl.trucks.get k).airEffort (s.tbl.trucks.get k).fallback.toNat) (room k))
      ∧ (s.control.partState ≠ .fallback →
          r.manual = m ∧ r.residual = s.demandEffort - m ∧ r.electric + r.air + r.shortfall = r.residual)
      ∧ (s.control.partState ≠ .fallback → s.demandEmergency = false →
          r.order = .electricFirst ∧ r.electric = min r.residual ceSum
          ∧ r.air = min (r.residual - r.electric) (room .a + room .b)
          ∧ t.blender.alloc.efforts = waterFill r.residual (PerAxle.ofFn ce)
          ∧ t.blender.alloc.air = placed (r.residual - r.electric))
      ∧ (s.control.partState ≠ .fallback → s.demandEmergency = true →
          r.order = .airFirst ∧ r.air = min r.residual (room .a + room .b)
          ∧ r.electric = (if s.tbl.blend.elecEmerg = 0 then 0 else min (r.residual - r.air) ceSum)
          ∧ t.blender.alloc.efforts
              = (if s.tbl.blend.elecEmerg = 0 then PerAxle.const 0
                else waterFill (r.residual - r.air) (PerAxle.ofFn ce))
          ∧ t.blender.alloc.air = placed (min r.residual (room .a + room .b)))
  (∀ (s : State) (x : TableSet) (crc : U16), s.tables.staging = .pendingSwitch x crc → s.control.partState = .active →
    s.demandEffort = 0 → s.demandEmergency = false →
    let u := s.switchTo x crc true
    u.tables.active = ⟨x, s.tables.active.number + 1, crc⟩ ∧ u.tables.staging = .idle ∧ u.control.partState = .active
    ∧ u.demandEffort = 0 ∧ u.demandEmergency = false ∧ accounts u s.compute true)
  ∧ ∀ s : State,
    (s.control.partState ≠ .active ∨ s.demandEffort ≠ 0 ∨ s.demandEmergency = true
      ∨ ∀ x crc, s.tables.staging ≠ .pendingSwitch x crc) →
    accounts s s.compute false

/-! ### Slide detection and correction -/

/-- One axle judged on a continuous sample (R89, R92 to R100): the creep and relative creep of a valid axle, the lock
test first, then the rule of its state, with the limit each entry, cut and restoring step leaves, brought within
the unlimited value after every rule (the model's choice, log entry 15); an invalid axle counted, and lost at N_lost;
consecutive count and entry time set on every entry; and a limit within the unlimited value stays within it. -/
def Obligations.SlideStatesJudged : Prop :=
  ∀ (x : SlideRecord) (j : JudgeOn),
    (∀ v : Nat,
      let y := x.judge j (some v)
      let c := j.vref - v
      let r := min 1000 (c * 1000 / max j.vref j.par.vFloor.toNat)
      let slides : Prop := j.par.thSlide.toNat ≤ r ∨ j.par.cAbs.toNat ≤ c
      let locks : Prop := v < j.par.vLockAxle.toNat ∧ j.par.vLockRef.toNat ≤ j.vref
      let entered : SlideState → Nat → Prop := fun st limit =>
        y.state = st ∧ y.limit = limit ∧ y.consecutive = 0 ∧ y.entryTime = j.now
      let stayed : Nat → Nat → Prop := fun limit count =>
        y.state = x.state ∧ y.limit = limit ∧ y.consecutive = count ∧ y.entryTime = x.entryTime
      let cutLast := min j.unlimited (j.last * j.par.reduceNum.toNat / 16)
      y.invalid = 0 ∧ y.speed = some v ∧ y.creep = some c ∧ y.relCreep = some r
      ∧ (x.state ≠ .locked → x.state ≠ .sensorLost → locks → entered .locked 0)
      ∧ (x.state = .adhered → ¬locks →
          (slides → entered .sliding cutLast)
          ∧ (¬slides → j.par.thSuspect.toNat ≤ r → entered .suspect (min j.unlimited j.last))
          ∧ (¬slides → r < j.par.thSuspect.toNat → stayed j.unlimited x.consecutive))
      ∧ (x.state = .suspect → ¬locks →
          (slides → entered .sliding cutLast)
          ∧ (¬slides → r < j.par.thRecover.toNat → entered .adhered j.unlimited)
          ∧ (¬slides → j.par.thRecover.toNat ≤ r → stayed x.limit x.consecutive))
      ∧ (x.state = .sliding → ¬locks →
          (r < j.par.thSuspect.toNat → entered .recovering x.limit)
          ∧ (j.par.thSuspect.toNat ≤ r →
              stayed (min j.unlimited (x.limit * j.par.reduceNum.toNat / 16)) x.consecutive))
      ∧ (x.state = .recovering → ¬locks →
          let count := if r < j.par.thRecover.toNat then min 255 (x.consecutive + 1) else 0
          (slides → entered .sliding cutLast)
          ∧ (¬slides → j.par.nRec.toNat ≤ count → entered .adhered j.unlimited)
          ∧ (¬slides → count < j.par.nRec.toNat → r < j.par.thSuspect.toNat →
              stayed (min j.unlimited (x.limit + j.par.restoreStep.toNat)) count)
          ∧ (¬slides → count < j.par.nRec.toNat → j.par.thSuspect.toNat ≤ r → stayed x.limit count))
      ∧ (x.state = .locked →
          (j.par.vLockAxle.toNat ≤ v → entered .sliding cutLast)
          ∧ (v < j.par.vLockAxle.toNat → stayed 0 x.consecutive))
      ∧ (x.state = .sensorLost →
          (3 ≤ x.consecutive + 1 → entered .adhered j.unlimited)
          ∧ (x.consecutive + 1 < 3 → stayed x.limit (x.consecutive + 1)))
      ∧ (x.limit ≤ j.unlimited → y.limit ≤ j.unlimited))
    ∧ (let y := x.judge j none
      y.invalid = min 255 (x.invalid + 1) ∧ y.speed = none ∧ y.creep = none ∧ y.relCreep = none
      ∧ (x.state = .sensorLost →
          y.state = .sensorLost ∧ y.limit = x.limit ∧ y.consecutive = 0 ∧ y.entryTime = x.entryTime)
      ∧ (x.state ≠ .sensorLost → j.par.nLost.toNat ≤ min 255 (x.invalid + 1) →
          y.state = .sensorLost ∧ y.limit = 0 ∧ y.consecutive = 0 ∧ y.entryTime = j.now)
      ∧ (x.state ≠ .sensorLost → min 255 (x.invalid + 1) < j.par.nLost.toNat →
          y.state = x.state ∧ y.limit = x.limit ∧ y.consecutive = x.consecutive ∧ y.entryTime = x.entryTime))

/-- The truck actions derived (R110 to R113) from the command builder's copy of the slide states and the efforts in
question: VENT_EXPIRED is kept while an axle is LOCKED, else a LOCKED axle gives VENT, a SLIDING axle without effort or
with its channel OFF gives HOLD, and otherwise NORMAL; entry to HOLD latches the pressure last emitted, entry to VENT
sets its deadline, both kept while the action stays; nothing else changes. A hand-off of the slide monitor (R114) writes
the states into the copy, and in control derives both actions and emits once when a re-emission is asked for or a truck
enters HOLD or VENT; one without change or request does nothing (the model's choice, log entry 16). -/
def Obligations.TruckActionsDerived : Prop :=
  (∀ (s : State) (efforts : PerAxle Nat) (k : Truck),
    let t := s.deriveActions efforts
    let old := s.builder.trucks.get k
    let new := t.builder.trucks.get k
    let locked : Prop := ∃ a ∈ k.axles, s.builder.copy.get a = .locked
    let spent : Prop := ∃ a ∈ k.axles, s.builder.copy.get a = .sliding
      ∧ (efforts.get a = 0 ∨ (s.control.axles.get a).mode = .off)
    (locked → old.action = .ventExpired → new = ⟨.ventExpired, none, none⟩)
    ∧ (locked → old.action = .vent → new = ⟨.vent, none, old.vent⟩)
    ∧ (locked → old.action ≠ .ventExpired → old.action ≠ .vent →
        new = ⟨.vent, none, some (s.time + BitVec.ofNat 32 (s.tbl.trucks.get k).ventMax.toNat)⟩)
    ∧ (¬locked → spent → old.action = .hold → new = ⟨.hold, old.hold, none⟩)
    ∧ (¬locked → spent → old.action ≠ .hold → new = ⟨.hold, some (s.builder.last.cmd.pressures.get k), none⟩)
    ∧ (¬locked → ¬spent → new = ⟨.normal, none, none⟩)
    ∧ t = { s with builder := { s.builder with trucks := t.builder.trucks } })
  ∧ ∀ (s : State) (changed : List Axle) (request : Bool),
    let s1 :=
      { s with
        builder :=
          { s.builder with
            copy := PerAxle.ofFn (fun a =>
              if a ∈ changed then (s.slide.axles.get a).state else s.builder.copy.get a) } }
    let s2 := s1.deriveActions s.builder.last.cmd.efforts
    let enters : Prop := ∃ k, (s2.builder.trucks.get k).action ≠ (s.builder.trucks.get k).action
      ∧ ((s2.builder.trucks.get k).action = .hold ∨ (s2.builder.trucks.get k).action = .vent)
    (changed = [] → request = false → s.handOff changed request = s)
    ∧ (changed ≠ [] ∨ request = true →
        (s.control.partState = .standby → s.handOff changed request = s1)
        ∧ (s.control.partState ≠ .standby → request = true ∨ enters → s.handOff changed request = s2.emitControl)
        ∧ (s.control.partState ≠ .standby → request = false → ¬enters → s.handOff changed request = s2))

/-- An emission in control (R109, R116 to R118, R121): the efforts by channel mode under the slide limits and the
pressures by channel mode under hold pressure, P_off and P_max (an AUTO channel has the table's entry at once: the
model's choice, log entry 38), the actions as derived at the emission, the command sequence advanced by one; it becomes
the last emitted set, and supervision is judged on it for each truck not in CALIBRATE. An emission in STANDBY (R119)
carries in-control false and zeros. Either enters the drive port's queue (R12 to R15): with the part running, the transmitter idle
and nothing of the part's own waiting it begins at once, with destination 63 and the next sequence; else it waits behind the
part's own telegrams, or in the place of a BRAKE_CMD that waits. Beyond that nothing but the command builder's records
and QUEUE_DROP changes. -/
def Obligations.EmissionClamps : Prop :=
  ∀ s : State,
    let q := s.port .drive
    let sent := fun (t : State) (c : BrakeCmd) =>
      t = { s.enqueueOwn .drive (.brakeCmd c) with builder := t.builder }
      ∧ t.port .cab = s.port .cab
      ∧ (s.phase = .running → q.tx = none → q.own = [] → q.fwd.length < 12 →
          t.port .drive
            = { q with tx := some (.own 63 s.node q.cmdSeq (.brakeCmd c)), cmdSeq := q.cmdSeq + 1 })
      ∧ (q.tx.isSome = true → (∀ d, .brakeCmd d ∉ q.own) → (t.port .drive).own = q.own ++ [.brakeCmd c])
      ∧ (∀ front d back, q.tx.isSome = true → (∀ d', .brakeCmd d' ∉ front) → q.own = front ++ .brakeCmd d :: back →
          t.port .drive = { q with own := front ++ .brakeCmd c :: back })
    (let t := s.emitControl
      let c := t.builder.last.cmd
      c.inControl = true ∧ c.seq = s.builder.last.cmd.seq + 1 ∧ t.builder.last.time = s.time
      ∧ (∀ a, c.efforts.get a =
            (match (s.control.axles.get a).mode with
              | .auto => min (s.blender.alloc.efforts.get a) (s.slide.axles.get a).limit
              | .manual => min (s.control.axles.get a).manual (s.slide.axles.get a).limit
              | _ => 0)
          ∧ c.efforts.get a ≤ (s.slide.axles.get a).limit)
      ∧ t.builder.trucks = (s.deriveActions c.efforts).builder.trucks
      ∧ (∀ k,
          let base :=
            match (s.control.trucks.get k).mode with
            | .off => 0
            | .auto => s.blender.alloc.pressures.get k
            | .manual => (s.control.trucks.get k).manual
            | .calibrate => (s.builder.calibration.map (fun x => if x.phase = .settle then x.pOff else x.pCal)).getD 0
          let e := s.tbl.trucks.get k
          let r := t.builder.trucks.get k
          c.actions.get k = r.action
          ∧ (r.action = .normal ∨ r.action = .ventExpired → c.pressures.get k = min base e.pMax.toNat)
          ∧ (r.action = .vent → c.pressures.get k = min (min base e.pOff.toNat) e.pMax.toNat)
          ∧ (∀ h, r.action = .hold → r.hold = some h → c.pressures.get k = min (min base h) e.pMax.toNat)
          ∧ t.builder.supervision.get k =
              (if (s.control.trucks.get k).mode = .calibrate then s.builder.supervision.get k
              else (s.builder.supervision.get k).judge (c.pressures.get k)
                (s.time + BitVec.ofNat 32 (e.lag.toNat * 3 + e.margin.toNat))))
      ∧ t.builder.copy = s.builder.copy ∧ t.builder.feedback = s.builder.feedback
      ∧ t.builder.calibration = s.builder.calibration
      ∧ ReportOnly { s with builder := t.builder } t ∧ sent t c)
    ∧ (let t := s.emitStandby
      t.builder.last
          = ⟨⟨false, PerAxle.const 0, ⟨0, 0⟩, ⟨.normal, .normal⟩, s.builder.last.cmd.seq + 1⟩, s.time⟩
      ∧ t.builder.trucks = s.builder.trucks
      ∧ (∀ k, t.builder.supervision.get k =
          (if (s.control.trucks.get k).mode = .calibrate then s.builder.supervision.get k
          else (s.builder.supervision.get k).judge 0 (s.armDeadline k)))
      ∧ ReportOnly { s with builder := t.builder } t ∧ sent t t.builder.last.cmd)

/-! ### Capture and faults -/

/-- A sample (R152 to R154, R162, R164): it is read from its owners with the fields not known absent, takes 58 bytes,
enters the ring as the newest of at most 250, and advances the counter. When a full ring lets its oldest sample go at
the build cursor of a capture, the record loses it; in FLUSHING only a sample up to the record's last one (the model's
reading, log entry 17). A capture in COLLECTING then counts the new sample, and closes at countdown 0 or, before that, at
1250 samples. Capture unit and record store then go on (PagesBuilt, ArbiterStarts), and nothing but them and their flags
changes. -/
def Obligations.SampleTaken : Prop :=
  ∀ (s : State) (event : CompEvent) (shortfall : Option Nat),
    let c := s.capture
    let x : Sample :=
      { index := c.counter, time := s.time, event := event, partState := s.control.partState
        demand :=
          if s.roleFreshness .demand = .fresh then s.control.demand.map (fun d => (d.raw, d.clamped, d.emergency))
          else none
        vref := s.slide.vref
        speeds := PerAxle.ofFn (fun a => (s.slide.axles.get a).speed)
        slide := PerAxle.ofFn (fun a => (s.slide.axles.get a).state)
        efforts := s.builder.last.cmd.efforts, pressures := s.builder.last.cmd.pressures
        feedback := PerTruck.ofFn (fun k =>
          match s.builder.feedback.get k with
          | .valid p _ => some p
          | _ => none)
        actions := PerTruck.ofFn (fun k => (s.builder.trucks.get k).action)
        heat := s.capability.heat, thermal := s.capability.thermal, shortfall := shortfall }
    let lost := fun (r : CaptureRecord) =>
      match c.ring with
      | [] => r
      | old :: _ =>
        let owned : Bool :=
          match r.phase with
          | .collecting => true
          | .flushing last _ => decide (last + 1 ≠ r.cursor)
        if 250 ≤ c.ring.length ∧ old.index = r.cursor ∧ owned = true then
          { r with cursor := r.cursor + 1, lost := r.lost + 1 }
        else r
    let counted := fun (r : CaptureRecord) =>
      match r.phase with
      | .flushing _ _ => r
      | .collecting =>
        { r with
          post := r.post + 1, countdown := r.countdown - 1
          phase :=
            if r.countdown ≤ 1 then .flushing c.counter .postDone
            else if 1250 ≤ r.pre + r.post + 1 then .flushing c.counter .lengthCap
            else .collecting }
    let t := s.takeSample event shortfall
    t = State.runStore
        { s with
          capture :=
            { c with
              counter := c.counter + 1
              ring := if c.ring.length < 250 then c.ring ++ [x] else c.ring.drop 1 ++ [x]
              record := c.record.map (fun r => counted (lost r)) } }
    ∧ t.capture.counter = c.counter + 1
    ∧ t.capture.ring = (if c.ring.length < 250 then c.ring ++ [x] else c.ring.drop 1 ++ [x])
    ∧ x.bytes.length = 58 ∧ RecorderOnly s t

/-- The building of pages (R163, R165). While the commit queue has room, a capture's next page is built as soon as it is
ready: the OPEN page at once; a SAMPLE page of 10 samples from the build cursor on in COLLECTING, and of up to 10 but none
past the last sample index in FLUSHING; then the CLOSE page with the final counts. The cursor passes the samples, the
next page sequence advances, and with the CLOSE page placed the capture ends, the recorder ARMED or DISARMED as latched.
With the queue full or no page ready, and the store at work with 2 banks ready, nothing happens. -/
def Obligations.PagesBuilt : Prop :=
  ∀ (s : State) (r : CaptureRecord) (before ahead : List Sample), s.capture.record = some r →
    s.capture.ring = before ++ ahead →
    (∀ x, s.capture.ring.head? = some x → before.length = min s.capture.ring.length (r.cursor - x.index).toNat) →
    let room : Prop := s.store.queue.length < 4
    let builds := fun (body : PageBody) (samples : Nat) =>
      s.runStore = State.runStore
        { s with
          store := { s.store with queue := s.store.queue ++ [⟨⟨r.incident, r.nextPage, body⟩, 0⟩] }
          capture :=
            { s.capture with
              record := some { r with cursor := r.cursor + BitVec.ofNat 32 samples, nextPage := r.nextPage + 1 } } }
    let rests : Prop := s.store.op ≠ .idle → 2 ≤ s.store.roomBanks → s.runStore = s
    (¬room → rests)
    ∧ (room → r.nextPage = 0 → builds (.opening r.opening) 0)
    ∧ (room → r.nextPage ≠ 0 → r.phase = .collecting →
        (10 ≤ ahead.length → builds (.samples (ahead.take 10)) 10)
        ∧ (ahead.length < 10 → rests))
    ∧ ∀ last reason, room → r.nextPage ≠ 0 → r.phase = .flushing last reason →
        let left := min ahead.length (last + 1 - r.cursor).toNat
        (0 < left → builds (.samples (ahead.take (min 10 left))) (min 10 left))
        ∧ (left = 0 →
            s.runStore = State.runStore
              { s with
                store :=
                  { s.store with
                    queue := s.store.queue ++ [⟨⟨r.incident, r.nextPage, .closing
                      { post := r.post, lost := r.lost, cls := r.cls, extraCount := r.extraCount, reason := reason
                        extras := r.extras }⟩, 0⟩] }
                capture :=
                  { s.capture with
                    record := none, recorder := if r.rearm = true then .armed else .disarmed } })

/-! ### The arbiter -/

/-- The arbiter (R171, R172, R180), when no page is to be built: no capture, a full queue, or in COLLECTING fewer than ten
samples in the ring from the build cursor on. Reclaim is judged first. While an operation is in
progress, or the scan runs, nothing starts. Idle, the store commits the oldest queued page at the write pointer of the
WRITING bank, or else in the next ERASED bank in ascending cyclic order, which becomes WRITING with run 0 and a fill
sequence one above the highest (with 4,294,967,295 in the table a free value in the range: the model's choice, log
entry 55), and reclaim is judged again. A page without such a place holds up neither a waiting page
read nor, after it, the oldest waiting erase; and when no bank is ERASED or ERASING and reclaim chooses none, the page is
dropped with what R174 says, and the next is judged. -/
def Obligations.ArbiterStarts : Prop :=
  ∀ s : State,
    let t := s.store
    let k := s.tbl.recorder.retention.toNat
    let ahead := fun (r : CaptureRecord) =>
      match s.capture.ring with
      | [] => 0
      | x :: _ => s.capture.ring.length - (r.cursor - x.index).toNat
    (∀ r, s.capture.record = some r →
      4 ≤ t.queue.length ∨ (r.nextPage ≠ 0 ∧ r.phase = .collecting ∧ ahead r < 10)) →
    let does := fun (u : Store) => s.runStore = { s with store := u }
    let other : Prop :=
      (∀ w, t.job = some (.walk w) → does { t with op := .read w.place.addr })
      ∧ ((∀ w, t.job ≠ some (.walk w)) →
          (∀ i rest, t.erases = i :: rest → does { t with op := .erase i }) ∧ (t.erases = [] → does t))
    s.runStore = State.runStore { s with store := t.judgeReclaim k }
    ∧ (t.judgeReclaim k = t →
      (t.op ≠ .idle ∨ t.scan = .scanning → does t)
      ∧ (t.op = .idle → t.scan = .done →
        (t.queue = [] → other)
        ∧ (t.queue ≠ [] →
          (∀ i < 16, t.bankIs .writing i = true → (∀ j < i, t.bankIs .writing j = false) →
            does { t with op := .commit ⟨i, (t.bank i).pointer⟩ })
          ∧ ((∀ i < 16, t.bankIs .writing i = false) →
            (∀ d i h, d < 16 → i = (t.lastWriting + 1 + d) % 16 → t.bankIs .erased i = true →
              (∀ c < d, t.bankIs .erased ((t.lastWriting + 1 + c) % 16) = false) →
              (∀ e ∈ t.banks, e.fillSeq ≤ h) → (∃ e ∈ t.banks, e.fillSeq = h) →
              ∃ fill, (h < 4294967295 → fill = h + 1) ∧ fill ≤ 4294967295
                ∧ does
                  (Store.judgeReclaim
                    { t with
                      op := .commit ⟨i, 0⟩, banks := t.banks.set i ⟨.writing, fill, 0, 0⟩, lastWriting := i } k))
            ∧ ((∀ i < 16, t.bankIs .erased i = false) → (∃ i < 16, t.bankIs .erasing i = true) → other)
            ∧ (∀ q rest, t.roomBanks = 0 → t.queue = q :: rest → t.queue.length ≤ 4 → s.capture.record = none →
                s.runStore = State.runStore
                  { s with
                    store :=
                      { t with
                        queue := rest
                        directory := t.directory.map (fun e =>
                          if e.incident = q.page.incident then
                            (match q.page.body with
                              | .opening _ => { e with openDropped := true }
                              | .samples l => { e with dropped := e.dropped + l.length }
                              | .closing _ => { e with state := .unclosed, close := none })
                          else e) }
                    orders := { s.orders with faults := raiseIn s.orders.faults .pageDropped } })))))

/-! ### Resets, start-up and supply -/

/-- The resets and the loss of supply (R1, R148, R187, R198, R199): each leaves the state that follows a reset, over the
memories as the cut leaves them, with the start-up load still to come; the restart count is 0 after power-on, kept by
the reset input, and one more after RESTART, whose reset comes only when its reply is on a line; without supply the
store keeps its memory alone. With nothing in progress nothing is cut; a cut commit leaves its page void, bad or whole; a
cut erase leaves its bank partly erased, an erased page below one that is not, with the pages erased that the command
names where these leave it so, and no other bank changed; a cut save leaves its slot corrupted, or valid with the old or
the new selection. The model's choices: commands that come when they cannot happen change nothing (log entry 3), the
state before the start-up load (log entry 2), what the cuts leave as operands, slot 0's save among them (log entries 25
and 26), and waiting commands kept (log entry 27). -/
def Obligations.ResetsCommence : Prop :=
  (∀ (s : State) (c : Cut),
    let after := fun n =>
      State.atReset s.pending .starting factorySet 0 (s.cutSlots c) (s.cutSelection c)
        (Store.scanFirst (s.store.cutPages c) s.store.retireMarks) n
    let replying : Prop := s.orders.restarting = true ∧
      ∃ p dest source seq f, (s.port p).tx = some (.own dest source seq (.reply f))
        ∧ f.reply.code = OrderName.restart.code
    exec (.powerOn c) s = .next (after 0)
    ∧ (s.phase ≠ .off → exec (.resetInput c) s = .next (after s.orders.restarts))
    ∧ (s.phase = .running → replying → exec (.restartReset c) s = .next (after (min 65535 (s.orders.restarts + 1))))
    ∧ (s.phase ≠ .running ∨ ¬replying → exec (.restartReset c) s = .next s)
    ∧ (s.phase ≠ .off →
        exec (.powerLoss c) s
          = .next
            (State.atReset s.pending .off factorySet 0 (s.cutSlots c) (s.cutSelection c)
              { Store.blank with pages := s.store.cutPages c, retireMarks := s.store.retireMarks } 0))
    ∧ (s.phase = .off → exec (.resetInput c) s = .next s ∧ exec (.powerLoss c) s = .next s))
  ∧ (∀ (t : Store) (c : Cut), pagesWf t.pages = true →
    ((∀ a, t.op ≠ .commit a) → (∀ i, t.op ≠ .erase i) → t.cutPages c = t.pages)
    ∧ (∀ a q rest, t.op = .commit a → t.queue = q :: rest →
        let after := fun (b : PageAddr) => lookupPage (t.cutPages c) b.key
        (c.page = .void → pageClass (after a) = .void)
        ∧ (∀ b, c.page = .bad b → pageClass (after a) = .bad ∧ (pageClass b = .bad → after a = b))
        ∧ (c.page = .whole → after a = q.page.bytes)
        ∧ (c.page ≠ .whole ∨ c.next = none → ∀ b : PageAddr, b.key ≠ a.key → after b = t.read b))
    ∧ (∀ i, t.op = .erase i →
        let after := lookupPage (t.cutPages c)
        let named := fun n =>
          if n / 64 = i ∧ c.erased.getLsbD (n % 64) = true then erasedPage else lookupPage t.pages n
        let partly := fun (f : Nat → Bytes) =>
          ∃ p q, p < q ∧ q < 64 ∧ isErased (f (64 * i + p)) = true ∧ isErased (f (64 * i + q)) = false
        partly after ∧ (partly named → ∀ n, after n = named n) ∧ ∀ n, n / 64 ≠ i → after n = lookupPage t.pages n))
  ∧ ∀ (s : State) (c : Cut),
    (s.tables.save = none → s.cutSlots c = s.tables.slots ∧ s.cutSelection c = s.tables.selection)
    ∧ ∀ r, s.tables.save = some r →
      (r.slot = 0 → s.cutSlots c = s.tables.slots)
      ∧ (r.slot ≠ 0 → c.save = .corrupted → (s.cutSlots c).info r.slot.val = .corrupted)
      ∧ (r.slot ≠ 0 → c.save ≠ .corrupted →
          (s.cutSlots c).contents r.slot.val = some (r.snapshot.number, r.snapshot.tables))
      ∧ (∀ j : Fin 4, j ≠ 0 → j ≠ r.slot → (s.cutSlots c).get j.val = s.tables.slots.get j.val)
      ∧ (s.cutSelection c = if c.save = .completeNewSelection then r.slot else s.tables.selection)

/-- The start-up load (R150, R151, R197, R199): the set of the selected slot when the slot is valid and passes every
check, the factory set with number 0 for selection 0, and otherwise the factory set with PROFILE_FAULT; every block
takes its reset values under that set, the status timer starts one status period on, and the part runs. The starting
phase is log entry 2 and the report of PROFILE_FAULT at the end of the load log entry 36, both the model's. -/
def Obligations.StartUpLoads : Prop :=
  ∀ s : State, s.phase = .starting →
    let loads := fun (x : TableSet) (n : U16) (fallback : Bool) =>
      ∃ t, exec .startUpLoad s = .next t
        ∧ Reported
          { State.atReset s.pending .running x n s.tables.slots s.tables.selection s.store s.orders.restarts with
            time := s.time
            orders :=
              { Orders.reset (initialSources x) s.orders.restarts with
                statusDeadline := some (s.time + BitVec.ofNat 32 x.header.statusPeriod.toNat)
                faults := if fallback then raiseIn 0 .profileFault else 0 } } t
    (s.tables.selection = 0 → loads factorySet 0 false)
    ∧ (s.tables.selection ≠ 0 → s.tables.slots.contents s.tables.selection.val = none → loads factorySet 0 true)
    ∧ ∀ n x, s.tables.selection ≠ 0 → s.tables.slots.contents s.tables.selection.val = some (n, x) →
        (x.check = none → loads x n false) ∧ (x.check ≠ none → loads factorySet 0 true)

/-- The start-up scan (R179, R180). Its first part judges every bank by its retirement mark and its written pages: of
the partly written banks the one whose last valid page has the greatest incident number, the lower-numbered of equals
(the model's choice, log entry 49), is WRITING at its first erased page and noted as the bank last WRITING (log entry
23), the others FILLED; fill sequences are 1, 2, ... in the order of the banks' lowest incident numbers, ties by bank
number, and 0 without a valid page; the erases of partly erased banks wait in ascending bank number (the model's
choice, log entry 57); the next incident number is one above the greatest. Its second part builds one entry for every
incident with a valid OPEN page in a bank neither ERASED nor ERASING, highest number first, CLOSED exactly when a
valid CLOSE page of the incident lies there, with its first page and trigger fields from its OPEN page, its valid
pages and their banks, and from its CLOSE page the post count, extra-trigger count and close reason, the lost count
being pre_count and post count less the samples held (where more are held, a free value: log entry 56; so are a
trigger kind and a close reason of a byte that names none: log entry 60; of several OPEN or CLOSE pages the first in
ascending bank and page: log entry 44). At its end the entries stand behind those of captures begun meanwhile, 48 at
most, reclaim is judged, an order that waited is taken as it would be taken then (it is judged at the scan's end: the
model's reading, log entry 21), and the store goes on. -/
def Obligations.ScanBuildsDirectory : Prop :=
  (∀ (pages : List (Nat × Bytes)) (marks : List Nat),
    let t := Store.scanFirst pages marks
    let erasedAt := fun i p => isErased (lookupPage pages (64 * i + p))
    let validAt := fun i p n => p < 64 ∧ pageClass (lookupPage pages (64 * i + p)) = .valid
      ∧ pageIncident (lookupPage pages (64 * i + p)) = n
    let noneValid := fun i => ∀ p n, ¬validAt i p n
    let last := fun i n => ∃ p, validAt i p n ∧ ∀ q m, p < q → ¬validAt i q m
    let lowest := fun i n => (∃ p, validAt i p n) ∧ ∀ q m, validAt i q m → n ≤ m
    let written := fun i w => ∀ p < 64, erasedAt i p = decide (w ≤ p)
    let candidate := fun i => i ∉ marks ∧ ∃ w, 1 ≤ w ∧ w < 64 ∧ written i w
    t.pages = pages ∧ t.retireMarks = marks ∧ t.scan = .scanning ∧ t.directory = [] ∧ t.queue = []
    ∧ (∀ i < 16,
        (t.bankIs .retired i = true ↔ i ∈ marks)
        ∧ (t.bankIs .erased i = true ↔ i ∉ marks ∧ ∀ p < 64, erasedAt i p = true)
        ∧ (t.bankIs .erasing i = true ↔ i ∉ marks ∧ ∃ p q, p < q ∧ q < 64 ∧ erasedAt i p = true ∧ erasedAt i q = false)
        ∧ (t.bankIs .writing i = true ↔ candidate i ∧ ∃ h, last i h ∧
            ∀ j < 16, ∀ g, candidate j → last j g → g < h ∨ (g = h ∧ i ≤ j))
        ∧ (t.bankIs .writing i = true → 1 ≤ (t.bank i).pointer ∧ (t.bank i).pointer < 64 ∧ written i (t.bank i).pointer
            ∧ t.lastWriting = i)
        ∧ (t.bankIs .filled i = true ↔ (candidate i ∨ (i ∉ marks ∧ written i 64)) ∧ t.bankIs .writing i = false)
        ∧ (t.bank i).mismatch = 0
        ∧ (noneValid i → t.bankIs .erased i = false → (t.bank i).fillSeq = 0)
        ∧ (∀ n, lowest i n →
            1 ≤ (t.bank i).fillSeq
            ∧ (∀ j < 16, ∀ m, lowest j m → ((t.bank j).fillSeq < (t.bank i).fillSeq ↔ m < n ∨ (m = n ∧ j < i)))
            ∧ ∀ v, 1 ≤ v → v ≤ (t.bank i).fillSeq → ∃ j < 16, (t.bank j).fillSeq = v)
        ∧ (∀ h, last i h → h < t.nextIncident)
        ∧ (i ∈ t.erases ↔ t.bankIs .erasing i = true))
    ∧ t.erases.Pairwise (· < ·)
    ∧ ((t.nextIncident = 1 ∧ ∀ i < 16, noneValid i) ∨ ∃ i < 16, ∃ h, last i h ∧ t.nextIncident = h + 1)
    ∧ ∀ i j, i < 16 → j < 16 → t.bankIs .writing i = true → t.bankIs .writing j = true → i = j)
  ∧ (∀ (t : Store),
    let found := fun (kind n : Nat) => ∃ i p, i < 16 ∧ p < 64 ∧ t.bankIs .erased i = false ∧ t.bankIs .erasing i = false
      ∧ pageClass (t.read ⟨i, p⟩) = .valid ∧ pageKind (t.read ⟨i, p⟩) = kind ∧ pageIncident (t.read ⟨i, p⟩) = n
    (t.scannedEntries.map DirEntry.incident).Pairwise (· > ·)
    ∧ (∀ n, (∃ e ∈ t.scannedEntries, e.incident = n) ↔ found 1 n)
    ∧ ∀ e ∈ t.scannedEntries, (e.state = .closed ↔ found 3 e.incident) ∧ (e.state ≠ .closed → e.state = .unclosed)
      ∧ (let group := (List.range 1024).filter (fun n =>
          let b := t.read ⟨n / 64, n % 64⟩
          !t.bankIs .erased (n / 64) && !t.bankIs .erasing (n / 64)
            && pageClass b == .valid && pageIncident b == e.incident)
        let first := fun (kind : Nat) (a : PageAddr) =>
          a.page < 64 ∧ 64 * a.bank + a.page ∈ group ∧ pageKind (t.read a) = kind
          ∧ ∀ n ∈ group, pageKind (t.read ⟨n / 64, n % 64⟩) = kind → 64 * a.bank + a.page ≤ n
        let held := (group.map (fun n =>
          let b := t.read ⟨n / 64, n % 64⟩
          if pageKind b = 2 then pageSamples b else 0)).sum
        e.pageCount = group.length ∧ e.committed = held ∧ e.dropped = 0
        ∧ (∀ i, i ∈ e.banks ↔ ∃ n ∈ group, n / 64 = i)
        ∧ (∃ a, e.firstPage = some a ∧ first 1 a
            ∧ (let o := t.read a
              ((byteAt o 14).toNat ≤ 11 → e.kind = TriggerKind.ofCode (byteAt o 14).toNat) ∧ e.cls = (byteAt o 15).toNat ∧ e.time = u32At o 16
              ∧ e.index = u32At o 20 ∧ e.pre = (byteAt o 24).toNat))
        ∧ (e.close = none ↔ ¬found 3 e.incident)
        ∧ ∀ a, first 3 a →
            let c := t.read a
            let written := e.pre + (u16At c 10).toNat
            ∃ lost reason, (held ≤ written → lost = written - held) ∧ lost ≤ written
              ∧ (byteAt c 17 = 0 → reason = .postDone) ∧ (byteAt c 17 = 1 → reason = .lengthCap) ∧ e.close = some
              { post := (u16At c 10).toNat, closeLost := lost
                extraCount := (u16At c 15).toNat, reason := reason }))
  ∧ ∀ s : State, s.phase = .running → s.noHeld → s.store.scan = .scanning →
      let built := Store.judgeReclaim
        { s.store with directory := (s.store.directory ++ s.store.scannedEntries).take 48, scan := .done }
        s.tbl.recorder.retention.toNat
      (s.store.job = none →
        ∃ t, exec .scanEnd s = .next t ∧ Reported (State.runStore { s with store := built }) t)
      ∧ (s.store.job = none → s.capture.record = none → s.store.queue = [] → s.store.op = .idle →
          2 ≤ s.store.roomBanks →
          ∃ t, exec .scanEnd s = .next t
            ∧ Reported
              { s with
                store :=
                  { built with
                    op := (match s.store.erases with
                      | i :: _ => .erase i
                      | [] => .idle) } } t)
      ∧ ∀ (o : Origin) (p : Position) (c : Instr) (name : OrderName) (args : Bytes),
          let s1 := { s with store := { built with job := none }, orders := { s.orders with slot := none } }
          s.orders.slot = some ⟨name, o.tag, p.pid⟩ → Ready s1 o p → asOrder c = some (o, name, args) →
          (∀ n i keep, s.store.job = some (.scanRead n i keep) →
            (∃ n' i', n = BitVec.toNat n' ∧ i = BitVec.toNat i' ∧ c = .readRecord o n' i' (if keep then 1 else 0)) →
            exec .scanEnd s = exec c s1)
          ∧ (s.store.job = some .scanNext → c = .readNext o → exec .scanEnd s = exec c s1)
          ∧ (s.store.job = some .scanClear → c = .clearStore o → exec .scanEnd s = exec c s1)
          ∧ (∀ start : U8, s.store.job = some (.scanList start.toNat) → c = .listRecords o start → s1.storeStill →
              exec .scanEnd s = exec c s1)

/-! ### The brake link -/

/-- Check errors (R4): exactly the telegrams of the table fail; each is discarded, counts at its port up to 65535 and
sets PORT_ERRORS, which has no lasting condition; what passes is handed to the classifier with its fields. -/
def Obligations.CheckErrorsDiscarded : Prop :=
  (∀ b : Bytes,
    let n := (byteAt b 4).toNat
    checkReceived (.truncated b) = none
    ∧ (checkReceived (.whole b) = none ↔
        b.length < 7 ∨ 64 < n ∨ b.length ≠ 7 + n ∨ byteAt b 1 = 63 ∨ u16At b (5 + n) ≠ crc16 (b.take (5 + n)))
    ∧ ∀ m, checkReceived (.whole b) = some m →
        m = ⟨byteAt b 0, byteAt b 1, byteAt b 2, byteAt b 3, (b.drop 5).take n, u16At b (5 + n)⟩)
  ∧ ∀ (s : State) (p : Port) (rx : Received), s.phase = .running → s.noHeld →
    let q := s.port p
    (checkReceived rx = none →
      ∃ t, exec (.telegramReceived p rx) s = .next t
        ∧ Reported
          { s with
            ports := s.ports.set p { q with counts := { q.counts with checkErrors := min 65535 (q.counts.checkErrors + 1) } }
            orders := { s.orders with faults := raiseIn s.orders.faults .portErrors } } t
        ∧ t.flag .portErrors = true)
    ∧ (∀ m, checkReceived rx = some m → exec (.telegramReceived p rx) s = .next (s.classify p m).finish)
    ∧ (∀ classes : U8, classes.getLsbD 0 = true → flagIn (s.clearedFaults classes) .portErrors = false)
    ∧ ∀ clear : U8,
        (s.linkCountsOrder clear).data = .linkCounts s.ports.cab.counts s.ports.drive.counts
        ∧ (clear ≠ 0 → ∀ r, ((s.linkCountsOrder clear).state.port r).counts.checkErrors = 0)

/-- Classification (R5 to R7): a telegram matches a non-empty entry with its arrival port, source and kind, and no
other; one for the part whose entry's role is not ORDER is counted unauthorised and discarded; another goes by its
entry's action, or by the default action, to the queue of the other port, to the source monitor, or nowhere; one of kind
ORDER, and one whose entry has no role, is never given to the source monitor. That a default action of 0 forwards and
another drops is the model's reading of the header byte (log entry 13), and so is that kind ORDER goes without a role
under an entry of any role (log entry 14). -/
def Obligations.ClassifiedByEntry : Prop :=
  ∀ (s : State) (p : Port) (rx : Received) (m : Telegram), s.phase = .running → s.noHeld → checkReceived rx = some m →
    let q := s.port p
    let isKey := fun i => (s.tbl.entry i).nonEmpty = true ∧ (s.tbl.entry i).port = portByte p
      ∧ (s.tbl.entry i).source = m.source ∧ (s.tbl.entry i).kind = m.kind
    let does := fun s1 => ∃ t, exec (.telegramReceived p rx) s = .next t ∧ Reported s1 t
    let unauthorised :=
      { s with
        ports := s.ports.set p { q with counts := { q.counts with unauthorised := min 65535 (q.counts.unauthorised + 1) } } }
    (s.tbl.matching p m = none ↔ ∀ i < 32, ¬isKey i)
    ∧ (∀ i, s.tbl.matching p m = some i → i < 32 ∧ isKey i)
    ∧ (m.dest = s.node →
        (s.tbl.matching p m = none → does unauthorised)
        ∧ ∀ i, s.tbl.matching p m = some i → (s.tbl.entry i).roleOf ≠ .order → does unauthorised)
    ∧ (m.dest ≠ s.node →
        (s.tbl.matching p m = none → s.tbl.header.defaultAction = 0 → does (s.forward p.other m))
        ∧ (s.tbl.matching p m = none → s.tbl.header.defaultAction ≠ 0 → does s)
        ∧ ∀ i, s.tbl.matching p m = some i →
            let role := (s.tbl.entry i).roleOf
            let action := (s.tbl.entry i).actionOf
            (action = .forward → does (s.forward p.other m))
            ∧ (action = .drop → does s)
            ∧ (role = .none ∨ m.kind = 0x40 →
                (action = .observe → does (s.forward p.other m)) ∧ (action = .consume → does s)))

/-- The source monitor (R7, R8, R9). It is given a telegram not for the part and not of kind ORDER under an entry with a
role that observes or consumes, and any for the part under an ORDER entry. One of another kind or length than the role's
counts as a content error, and a repeated sequence of a FRESH record as a duplicate, with nothing else changed; any other
is accepted: the record becomes FRESH with sequence, arrival, deadline and skipped values, OBSERVE forwards the telegram,
before the role's consumer takes it with its mark (that order is the model's choice, log entry 10). -/
def Obligations.ArrivalsJudged : Prop :=
  ∀ (s : State) (p : Port) (rx : Received) (m : Telegram) (i : Nat) (x : SourceRecord),
    s.phase = .running → s.noHeld → checkReceived rx = some m → s.tbl.matching p m = some i →
    s.sources.find? (fun y => y.entry == i) = some x → x.role = (s.tbl.entry i).roleOf →
    let action := (s.tbl.entry i).actionOf
    (m.dest = s.node ∧ x.role = .order ∨
      m.dest ≠ s.node ∧ x.role ≠ .none ∧ m.kind ≠ 0x40 ∧ (action = .observe ∨ action = .consume)) →
    let with' := fun (f : SourceRecord → SourceRecord) =>
      { s with sources := s.sources.map (fun y => if y.entry == i then f y else y) }
    let formed : Prop :=
      match x.role with
      | .none => False
      | .demand => m.kind = 0x10 ∧ m.payload.length = 3
      | .speed => m.kind = 0x20 ∧ m.payload.length = 15
      | .inverterA => m.kind = 0x21 ∧ m.payload.length = 15
      | .inverterB => m.kind = 0x21 ∧ m.payload.length = 15
      | .pressure => m.kind = 0x22 ∧ m.payload.length = 5
      | .order => m.kind = 0x40 ∧ 2 ≤ m.payload.length ∧ m.payload.length ≤ 64
    let d := (m.seq - x.lastSeq.getD 0).toNat
    let taken := fun (mark : Mark) =>
      let s1 := with' (fun y =>
        { y with
          freshness := .fresh, lastSeq := some m.seq, lastArrival := some s.time
          deadline := some (s.time + BitVec.ofNat 32 (max 1 (s.tbl.entry i).stale.toNat))
          gaps := if mark = .gap then min 65535 (y.gaps + ((m.seq - y.lastSeq.getD 0).toNat - 1)) else y.gaps })
      let s2 := if m.dest ≠ s.node ∧ action = .observe then s1.forward p.other m else s1
      exec (.telegramReceived p rx) s = .next (State.deliver x.role i mark m s2).finish
    (¬formed →
      ∃ t, exec (.telegramReceived p rx) s = .next t
        ∧ Reported (with' (fun y => { y with contentErrors := min 65535 (y.contentErrors + 1) })) t)
    ∧ (formed → x.freshness = .fresh → d = 0 →
        ∃ t, exec (.telegramReceived p rx) s = .next t
          ∧ Reported (with' (fun y => { y with duplicates := min 65535 (y.duplicates + 1) })) t)
    ∧ (formed → x.freshness = .fresh → d = 1 → taken .inSequence)
    ∧ (formed → x.freshness = .fresh → 2 ≤ d → taken .gap)
    ∧ (formed → x.freshness ≠ .fresh → taken .resumed)

/-- Transmitters (R13): at the end of a transmission the oldest waiting own telegram begins, with the part's node number
and its sequence from its counter, which advances; else the oldest forwarded one; else the transmitter is idle until a
telegram enters. A REPLY goes to the source of its order (R3), its next fragment enters the queue behind it (R191), and
with its last its position becomes CLEAR (R190). A telegram on the line stays whatever enters the queue, and the other
port keeps its own. With nothing on the line (log entry 3), and for the reply to RESTART, whose end is the reset (R198,
log entry 9), the command changes nothing, by the model's choice. -/
def Obligations.TransmitterTakesNext : Prop :=
  (∀ (s : State) (p : Port), s.phase = .running → s.noHeld →
    let q := s.port p
    let endsPart : Prop := s.orders.restarting = true ∧
      ∃ dest source seq f, q.tx = some (.own dest source seq (.reply f)) ∧ f.reply.code = OrderName.restart.code
    let becomes := fun (q1 : PortState) (positions : List Position) =>
      ∃ t, exec (.transmissionEnd p) s = .next t
        ∧ Reported { s with ports := s.ports.set p q1, orders := { s.orders with positions := positions } } t
    (q.tx = none ∨ endsPart → ∃ t, exec (.transmissionEnd p) s = .next t ∧ Reported s t)
    ∧ (q.tx.isSome = true → ¬endsPart →
      (∀ c rest, q.own = .brakeCmd c :: rest →
        becomes { q with own := rest, tx := some (.own 63 s.node q.cmdSeq (.brakeCmd c)), cmdSeq := q.cmdSeq + 1 }
          s.orders.positions)
      ∧ (∀ c rest, q.own = .partStatus c :: rest →
          becomes { q with own := rest, tx := some (.own 63 s.node q.cmdSeq (.partStatus c)), cmdSeq := q.cmdSeq + 1 }
            s.orders.positions)
      ∧ (∀ f rest x, q.own = .reply f :: rest → s.position f.pid = some x →
          (f.reply.data.fragments ≤ f.number + 1 →
            becomes
              { q with own := rest, tx := some (.own x.key.source s.node q.replySeq (.reply f)), replySeq := q.replySeq + 1 }
              (s.orders.positions.map (fun y => if y.pid = f.pid then { y with queued := false } else y)))
          ∧ (f.number + 1 < f.reply.data.fragments →
              becomes
                { q with
                  own := rest ++ [.reply { f with number := f.number + 1 }]
                  tx := some (.own x.key.source s.node q.replySeq (.reply f)), replySeq := q.replySeq + 1 }
                s.orders.positions))
      ∧ (∀ m rest, q.own = [] → q.fwd = m :: rest →
          becomes { q with fwd := rest, tx := some (.forwarded m) } s.orders.positions)
      ∧ (q.own = [] → q.fwd = [] → becomes { q with tx := none } s.orders.positions)))
  ∧ ∀ (s : State) (p : Port) (x : OwnTelegram) (m : Telegram), s.phase = .running →
    let q := s.port p
    let q1 := (s.enqueueOwn p x).port p
    let q2 := (s.forward p m).port p
    (q.tx.isSome = true → q1.tx = q.tx ∧ q2.tx = q.tx)
    ∧ (q.tx = none → q.own = [] → q.fwd = [] →
        (∃ dest seq, q1.tx = some (.own dest s.node seq x)) ∧ q2.tx = some (.forwarded m) ∧ q2.fwd = [])
    ∧ (∀ r, r ≠ p → (s.enqueueOwn p x).port r = s.port r ∧ (s.forward p m).port r = s.port r)

/-- Output queues (R12, R14, R15), with a telegram on the line: BRAKE_CMD and PART_STATUS take the place of the waiting
one of their kind, a REPLY never does; any other telegram enters at the end of its class; an own one that finds 12
waiting removes the newest forwarded one, a forwarded one is dropped; each loss counts and sets QUEUE_DROP. -/
def Obligations.QueuesKeepPlaces : Prop :=
  ∀ (s : State) (p : Port), (s.port p).tx.isSome = true →
    let q := s.port p
    let holds := fun (u : State) (own : List OwnTelegram) (fwd : List Telegram) (lost : Nat) =>
      u.port p = { q with own := own, fwd := fwd, counts := if lost = 0 then q.counts else { q.counts with queueDrops := min 65535 (q.counts.queueDrops + lost) } }
      ∧ u.flag .queueDrop = (s.flag .queueDrop || decide (0 < lost))
    let full : Prop := 12 ≤ q.own.length + q.fwd.length
    (∀ x front y back, (∀ z ∈ front, x.supersedes z = false) → x.supersedes y = true → q.own = front ++ y :: back →
      holds (s.enqueueOwn p x) (front ++ x :: back) q.fwd 0)
    ∧ (∀ x, (∀ z ∈ q.own, x.supersedes z = false) →
        (¬full ∨ q.fwd = [] → holds (s.enqueueOwn p x) (q.own ++ [x]) q.fwd 0)
        ∧ (full → q.fwd ≠ [] → holds (s.enqueueOwn p x) (q.own ++ [x]) q.fwd.dropLast 1))
    ∧ (∀ m, (¬full → holds (s.forward p m) q.own (q.fwd ++ [m]) 0) ∧ (full → holds (s.forward p m) q.own q.fwd 1))
    ∧ ∀ c d : BrakeCmd, ∀ a b : PartStatus, ∀ f g : ReplyFragment,
        (OwnTelegram.brakeCmd c).supersedes (.brakeCmd d) = true
        ∧ (OwnTelegram.partStatus a).supersedes (.partStatus b) = true
        ∧ (OwnTelegram.reply f).supersedes (.reply g) = false
        ∧ (OwnTelegram.brakeCmd c).supersedes (.partStatus b) = false
        ∧ (OwnTelegram.brakeCmd c).supersedes (.reply f) = false
        ∧ (OwnTelegram.partStatus a).supersedes (.brakeCmd d) = false
        ∧ (OwnTelegram.partStatus a).supersedes (.reply f) = false
        ∧ (OwnTelegram.reply f).supersedes (.brakeCmd c) = false
        ∧ (OwnTelegram.reply f).supersedes (.partStatus a) = false


/-! ### Orders -/

/-- An order telegram is its order command (R6, R188, R189): a well-formed ORDER to the part under an ORDER entry, whose
sequence its record accepts, does exactly what the command with that source, tag, name and arguments does, on the part as
the source monitor left it; for every order but LOAD, bytes beyond the arguments are ignored. From a CLEAR source, a name
not in the table is answered UNKNOWN_ORDER with the name, and too few argument bytes REFUSED_ARG, and nothing else is
done. That the order rows stand for such telegrams is the model's reading (log entry 5), and that LOAD needs four argument
bytes, its items being its owner's to judge, the model's choice (log entry 61). -/
def Obligations.OrderTelegramIsCommand : Prop :=
  ∀ (s : State) (p : Port) (i : Fin 32) (x : SourceRecord) (source seq tag code : U8) (args : Bytes) (m : Mark),
    s.phase = .running → source ≠ 63 → args.length ≤ 62 →
    s.sources.find? (fun y => y.entry == i.val) = some x → x.role = .order → (s.tbl.entry i.val).roleOf = .order →
    let tel := Telegram.form s.node source kindOrder seq (tag :: code :: args)
    s.tbl.matching p tel = some i.val → x.mark seq = some m →
    let received := Instr.telegramReceived p (.whole tel.bytes)
    let s1 := s.mapSource i.val (fun y => y.accept seq m s.time (s.tbl.entry i.val).staleTimeout)
    let o : Origin := ⟨i, tag⟩
    (∀ c name b, asOrder c = some (o, name, b) → name.code = code →
      (args = b → exec received s = exec c s1)
      ∧ ∀ pos extra, Ready s1 o pos → name ≠ .load → args = b ++ extra → exec received s = exec c s1)
    ∧ ∀ pos, Ready s1 o pos →
      ((∀ name : OrderName, name.code ≠ code) →
        ∃ t, exec received s = .next t ∧ Handed pos ⟨tag, code, .unknownOrder, .orderCode code⟩ s1 t)
      ∧ ∀ name : OrderName, name.code = code → args.length < name.argBytes →
        ∃ t, exec received s = .next t ∧ Handed pos ⟨tag, code, .refusedArg, .empty⟩ s1 t

/-- Reply positions settle (R190, R193). A reply handed over to a QUEUED position is deferred. When the last REPLY
telegram of a position's reply begins its transmission, a deferred reply is placed at once and the position is QUEUED
again, its held order kept; without one the held order is taken, exactly as if it came then; and a departing position
with nothing deferred and no long order outstanding ends. With the last departing one, new positions hold orders no
longer, and of the orders that they hold the one of the lowest entry is taken, after which the others settle in turn, so
that they are taken in ascending order of their entries. That all this happens at the end of the command is the model's
choice (log entry 8). -/
def Obligations.PositionsSettle : Prop :=
  (∀ (s : State) (r : Reply) (y : Position), s.position y.pid = some y → y.queued = true →
    s.handOver y.pid r
      = { s with
          orders :=
            { s.orders with
              positions := s.orders.positions.map (fun z =>
                if z.pid = y.pid then { z with deferred := some r } else z) } })
  ∧ ∀ (s : State) (p : Port) (f : ReplyFragment) (rest : List OwnTelegram) (y : Position),
    s.phase = .running → s.orders.restarting = false → s.orders.reported = some s.statusKey →
    s.orders.positions.length ≤ 8 → (s.port p).tx.isSome = true → (s.port p).own = .reply f :: rest →
    f.reply.data.fragments ≤ f.number + 1 → s.position f.pid = some y → y.key.port = p → y.queued = true →
    let q := s.port p
    let others := s.orders.positions.filter (fun z => z.pid != y.pid)
    let settled := fun (z : Position) =>
      z.queued = true ∨ (z.held = none ∧ z.deferred = none ∧ z.departing = false)
    let q1 := { q with own := rest, tx := some (.own y.key.source s.node q.replySeq (.reply f)), replySeq := q.replySeq + 1 }
    let put := fun (own : List OwnTelegram) (positions : List Position) =>
      { s with ports := s.ports.set p { q1 with own := own }, orders := { s.orders with positions := positions } }
    let written := fun (x : Position) => s.orders.positions.map (fun z => if z.pid = y.pid then x else z)
    let ends := fun (t : State) => exec (.transmissionEnd p) s = .next t
    let idle : Prop := ∀ z ∈ others, settled z
    (s.orders.positions.filter (fun z => z.pid == y.pid) = [y] →
      (∀ r, idle → y.deferred = some r → rest.length + q.fwd.length < 12 →
        ends (put (rest ++ [.reply ⟨y.pid, r, 0⟩]) (written { y with deferred := none })))
      ∧ (idle → y.deferred = none → y.held = none → y.departing = false →
          ends (put rest (written { y with queued := false })))
      ∧ (∀ h, y.deferred = none → y.held = some h → y.departing = false → y.fresh = false →
          (∀ z ∈ others, z.held = none ∧ z.deferred = none ∧ z.departing = false) →
          s.entryPosition y.entry = some y →
          let u := put rest (written { y with queued := false, held := none })
          ends (u.orderArrives y.entry h.tag h.code h.args).finish
          ∧ ∀ (o : Origin) (c : Instr) (name : OrderName), asOrder c = some (o, name, h.args) →
              o.tag = h.tag → o.entry.val = y.entry → name.code = h.code →
              exec (.transmissionEnd p) s = exec c u)
      ∧ (idle → y.departing = true → y.deferred = none → y.held = none →
          (∀ l, s.orders.slot = some l → l.pid = y.pid → ends (put rest (written { y with queued := false })))
          ∧ ((∀ l, s.orders.slot = some l → l.pid ≠ y.pid) →
              ((∃ z ∈ others, z.departing = true) → ends (put rest others))
              ∧ ((∀ z ∈ others, z.departing = false) →
                  ends (put rest (others.map (fun z => { z with fresh := false }))))))
      ∧ ∀ z h, y.departing = true → y.deferred = none → y.held = none →
          (∀ l, s.orders.slot = some l → l.pid ≠ y.pid) → z ∈ others → z.fresh = true → z.queued = false →
          z.held = some h → z.deferred = none → (∀ x ∈ others, x.pid = z.pid → x = z) →
          (∀ x ∈ others, x.departing = false
            ∧ (x = z ∨ x.queued = true ∨ (x.deferred = none ∧ (x.held = none ∨ (x.fresh = true ∧ z.entry < x.entry))))) →
          (others.map Position.entry).Pairwise (· < ·) → s.entryPosition z.entry = some z →
          let u := put rest (others.map (fun x =>
            if x.pid = z.pid then { x with fresh := false, held := none } else { x with fresh := false }))
          ends (u.orderArrives z.entry h.tag h.code h.args).finish)

/-! ### Data telegrams -/

/-- An accepted DEMAND (R30 to R34): the demand record with its clamped demand and consecutive-good count; the
EMERGENCY_DEMAND trigger at the first of a run; the demand-loss timer restarted; then, by part state, an emission of
STANDBY, a computation with its emission, the return to ACTIVE at a count of 2 with a computation, or nothing; and a
sample after it. Under an entry that observes, the forwarded telegram enters its queue first (the model's choice, log
entry 10). -/
def Obligations.DemandTaken : Prop :=
  ∀ (s : State) (x : SourceRecord) (dest seq : U8) (effort : U16) (flags : U8) (m : Mark), x.role = .demand →
    Accepts s x dest seq (DemandPayload.bytes ⟨effort, flags⟩) m → s.noHeld →
    let s0 := s.accepted x dest seq (DemandPayload.bytes ⟨effort, flags⟩) m
    let emergency := flags.getLsbD 0
    let clamped :=
      if emergency then s.tbl.blend.dEmerg.toNat
      else if effort.toNat ≤ s.tbl.blend.dMax.toNat then effort.toNat else s.tbl.blend.dMax.toNat
    let good := if m = .inSequence then min 255 (s.control.goodCount + 1) else 1
    let s1 :=
      { s0 with
        control := { s0.control with demand := some ⟨effort.toNat, emergency, clamped, s.time⟩, goodCount := good } }
    let first := emergency && s.control.demand.all (fun d => !d.emergency)
    let s2 := if first then s1.takeTrigger .emergencyDemand else s1
    let s3 :=
      { s2 with
        control := { s2.control with timer := .waiting (s.time + BitVec.ofNat 32 s.tbl.blend.tDem.toNat) } }
    let computed := fun (s4 : State) =>
      s4.compute.takeSample .demand (s4.compute.blender.record.map (fun r => r.shortfall))
    let does := fun s5 => ∃ t, exec (.demand dest seq effort flags) s = .next t ∧ Reported s5 t
    (s.control.partState = .standby → does (s3.emitStandby.takeSample .demand none))
    ∧ (s.control.partState = .active ∨ s.control.partState = .maintenance → does (computed s3))
    ∧ (s.control.partState = .fallback → good < 2 → does (s3.takeSample .demand none))
    ∧ (s.control.partState = .fallback → 2 ≤ good →
        does (computed { s3 with control := { s3.control with partState := .active } }))

/-- An accepted AXLE_SPEED (R84 to R89, R101 to R103, R28, R127). At a discontinuity the reference speed is re-seeded
and no creep formed, at a continuous sample it follows the supplying axles within its steps, heat is updated, and every
axle is judged; motion above 300 sc ends MAINTENANCE and any speed a calibration; the entries take effect in ascending
axle number, SLIDING and LOCKED with attention, trigger, lowered adhesion estimate and restarted timer; and one hand-off
follows, which asks for a re-emission when a slide limit lies below an effort last emitted. The model's choices: a forward
before the consumer (log entry 10), heat, motion and abort in that order and the efforts last emitted as the sample was
taken (log entry 11), MAINT_MOTION raised with the part already in ACTIVE (log entry 46), limits kept within the unlimited value (log entry 15), and no hand-off without a change or a request
(log entry 16). -/
def Obligations.SpeedSampleTaken : Prop :=
  (∀ (s : State) (x : SourceRecord) (dest seq : U8) (time : U16) (speeds : PerAxle U16) (valid : U8) (m : Mark),
    x.role = .speed → Accepts s x dest seq (SpeedPayload.bytes ⟨time, speeds, valid⟩) m → s.noHeld →
    let s0 := s.accepted x dest seq (SpeedPayload.bytes ⟨time, speeds, valid⟩) m
    let v := fun (a : Axle) => if valid.getLsbD a.bit then some (min 16000 (speeds.get a).toNat) else none
    let some' := Axle.all.filter (fun a => (v a).isSome)
    let top := fun (l : List Axle) => (l.map (fun a => (v a).getD 0)).foldl max 0
    let moved := fun (u : State) =>
      if s.control.partState = .maintenance ∧ 300 < u.slide.vref then
        (u.leaveMaintenance.withPartState .active).takeTrigger .maintMotion
      else if 0 < u.slide.vref then u.abortCalibration false
      else u
    let last := s.builder.last.cmd.efforts
    let asks := fun (u : State) => Axle.all.any (fun a => (u.slide.axles.get a).limit < u.builder.last.cmd.efforts.get a)
    let does := fun s5 => ∃ t, exec (.axleSpeed dest seq time speeds valid) s = .next t ∧ Reported s5 t
    let step := s.slide.lastSampleTime.map (fun t0 => (time - t0).toNat)
    (step = none ∨ step = some 0 ∨ (∃ dt, step = some dt ∧ 200 < dt) →
      let s2 :=
        moved
          { s0 with
            slide :=
              { s0.slide with
                vref := top some', lastSampleTime := some time
                axles := PerAxle.ofFn (fun a =>
                  { s.slide.axles.get a with speed := v a, creep := none, relCreep := none }) } }
      does (s2.handOff [] (asks s2)))
    ∧ (∀ dt, step = some dt → 1 ≤ dt → dt ≤ 200 →
        let dec := s.tbl.adhesion.dRef.toNat * dt / 1000
        let acc := s.tbl.adhesion.aRef.toNat * dt / 1000
        let inState := some'.filter (fun a =>
          (s.slide.axles.get a).state = .adhered || (s.slide.axles.get a).state = .suspect
            || (s.slide.axles.get a).state = .recovering)
        let supplying := if inState.isEmpty then some' else inState
        let vref :=
          if some'.isEmpty then s.slide.vref - dec
          else max (s.slide.vref - dec) (min (top supplying) (s.slide.vref + acc))
        let s1 := State.heatUpdate dt { s0 with slide := { s0.slide with vref := vref, lastSampleTime := some time } }
        let s2 := moved s1
        let judged := PerAxle.ofFn (fun a =>
          (s.slide.axles.get a).judge ⟨s.tbl.adhesion, s.tbl.unlimited a, last.get a, vref, s.time⟩ (v a))
        let changed := Axle.all.filter (fun a => (judged.get a).state != (s.slide.axles.get a).state)
        let s3 :=
          changed.foldl (fun u a => u.entryConsequences a (judged.get a).state)
            { s2 with slide := { s2.slide with axles := judged } }
        does (s3.handOff changed (asks s3))))
  ∧ ∀ (s : State) (a : Axle) (st : SlideState),
    let s1 := { s with slide := { s.slide with attention := s.slide.attention.set a true } }
    let lowered := fun (u : State) =>
      let est := max u.tbl.adhesion.aMin.toNat (u.slide.aEst - u.tbl.adhesion.stepDown.toNat)
      let u1 := { u with slide := { u.slide with aEst := est, recoveryDeadline := u.time + 1000 } }
      if est = u.tbl.adhesion.aMin.toNat then u1.setFlag .adhesionLow else u1
    s.entryConsequences a st =
      match st with
      | .sliding => lowered (s1.takeTrigger .slideEntry)
      | .locked => lowered ((s1.setFlag .lockDetected).takeTrigger .lockDetected)
      | .sensorLost => s1
      | _ => s

/-- An accepted EFFORT_REPORT (R49): the node's three axles take limit, achieved effort and fault, the limit 0 under a
fault; INVERTER_FAULT is set when a present axle of the node reports one. An accepted CYL_PRESSURE (R120, R122, R123, R125,
R126): a resumed source takes supervision out of SUSPENDED, each truck's feedback is stored as valid with its time or
invalid, a valid one is judged by supervision, and then a calibration in STEP whose truck's valid feedback reaches the
threshold ends with the lag. Nothing else changes. Supervision itself (R121, R122): a rise of 20 kPa or more over the
reference arms an IDLE or ARMED truck with the deadline given and takes the pressure as reference; any other pressure
lowers the reference to itself at most and keeps the state; a feedback within 10 kPa of the pressure last emitted takes
ARMED to IDLE, and LATE to IDLE with that pressure as reference; any other feedback changes nothing. The model's choices: a
forward before the consumer's reply and emission (log entry 10), no arrival time kept of an invalid feedback (log
entry 41), and supervision of both trucks judged before the calibration, whose end emits (log entry 54). -/
def Obligations.ReportsTaken : Prop :=
  (∀ (s : State) (x : SourceRecord) (node : Inverter) (dest seq : U8) (r1 r2 r3 : InverterReport) (m : Mark),
    x.role = inverterRole node → Accepts s x dest seq (EffortPayload.bytes ⟨r1, r2, r3⟩) m → s.noHeld →
    let s0 := s.accepted x dest seq (EffortPayload.bytes ⟨r1, r2, r3⟩) m
    let entry := fun (r : InverterReport) =>
      (⟨if r.fault = 0 then r.limit.toNat else 0, r.achieved.toNat, decide (r.fault ≠ 0)⟩ : InverterState)
    let old := s.capability.inverters
    let new := match node with
      | .a => { old with a1 := entry r1, a2 := entry r2, a3 := entry r3 }
      | .b => { old with a4 := entry r1, a5 := entry r2, a6 := entry r3 }
    let faulted := match node with
      | .a => (s.tbl.present .e1 && r1.fault != 0) || (s.tbl.present .e2 && r2.fault != 0)
          || (s.tbl.present .e3 && r3.fault != 0)
      | .b => (s.tbl.present .e4 && r1.fault != 0) || (s.tbl.present .e5 && r2.fault != 0)
          || (s.tbl.present .e6 && r3.fault != 0)
    ∃ t, exec (.effortReport node dest seq r1 r2 r3) s = .next t
      ∧ Reported
        { s0 with
          capability := { s.capability with inverters := new }
          orders := if faulted then { s0.orders with faults := raiseIn s0.orders.faults .inverterFault } else s0.orders } t)
  ∧ (∀ (s : State) (x : SourceRecord) (dest seq : U8) (fbA fbB : U16) (valve : U8) (m : Mark), x.role = .pressure →
    Accepts s x dest seq (PressurePayload.bytes ⟨fbA, fbB, valve⟩) m → s.noHeld →
    let s0 := s.accepted x dest seq (PressurePayload.bytes ⟨fbA, fbB, valve⟩) m
    let value := fun (k : Truck) => match k with
      | .a => if valve.getLsbD 0 = true ∧ fbA.toNat ≤ 1000 then some fbA.toNat else none
      | .b => if valve.getLsbD 1 = true ∧ fbB.toNat ≤ 1000 then some fbB.toNat else none
    let supervised := fun (k : Truck) =>
      let last := s.builder.last.cmd.pressures.get k
      let old := s.builder.supervision.get k
      let resumed := if m = .resumed ∧ old.state = .suspended then ⟨.idle, last⟩ else old
      match value k with
      | some f => resumed.answer f last
      | none => resumed
    let s1 :=
      { s0 with
        builder :=
          { s.builder with
            feedback := PerTruck.ofFn (fun k => match value k with
              | some f => .valid f s.time
              | none => .invalid)
            supervision := PerTruck.ofFn supervised } }
    let does := fun s2 => ∃ t, exec (.cylPressure dest seq fbA fbB valve) s = .next t ∧ Reported s2 t
    (s.builder.calibration = none → does s1)
    ∧ ∀ c, s.builder.calibration = some c →
        (c.phase = .settle ∨ value c.truck = none → does s1)
        ∧ (∀ f, value c.truck = some f → f < c.threshold → does s1)
        ∧ (∀ f, value c.truck = some f → c.phase = .step → c.threshold ≤ f →
            let lag := (s.time - c.since).toNat
            does ((s1.writeLag c.truck lag).endCalibration c .done (.calibrated (truckNumber c.truck) lag) false)))
  ∧ ∀ (r : Supervision) (p feedback last : Nat) (d : LinkTime),
    (r.state = .idle ∨ (∃ e, r.state = .armed e) →
      (r.reference + 20 ≤ p → r.judge p d = ⟨.armed d, p⟩)
      ∧ (p < r.reference + 20 → r.judge p d = ⟨r.state, min p r.reference⟩))
    ∧ (r.state = .late ∨ r.state = .suspended → r.judge p d = ⟨r.state, min p r.reference⟩)
    ∧ (feedback ≤ last + 10 → last ≤ feedback + 10 →
        (∀ e, r.state = .armed e → r.answer feedback last = ⟨.idle, r.reference⟩)
        ∧ (r.state = .late → r.answer feedback last = ⟨.idle, last⟩)
        ∧ (r.state = .idle ∨ r.state = .suspended → r.answer feedback last = r))
    ∧ (last + 10 < feedback ∨ feedback + 10 < last → r.answer feedback last = r)

/-! ### Deadlines -/

/-- A source record at its stale deadline (R10, R50, R100, R120, R123): STALE without deadline, sequence and arrival
kept; SOURCE_STALE for DEMAND, SPEED and PRESSURE; an inverter's limits 0 with INVERTER_STALE and INVERTER_LOSS; every
axle SENSOR_LOST with limit 0, with its attention, and a hand-off; feedbacks absent and supervision SUSPENDED; and no
report for an ORDER record. The model's choices: without such a record the command changes nothing (log entry 3), and the
hand-off names the axles whose copy differs (log entry 16). -/
def Obligations.SourceGoesStale : Prop :=
  ∀ (s : State) (i : Fin 32), s.phase = .running → s.noHeld →
    ((∀ x ∈ s.sources, ¬(x.entry = i.val ∧ x.freshness = .fresh ∧ x.deadline = some s.time)) →
      exec (.staleExpiry i) s = .next s)
    ∧ ∀ x, s.sources.find? (fun y => y.entry == i.val) = some x → x.freshness = .fresh → x.deadline = some s.time →
      let s0 :=
        { s with
          sources := s.sources.map (fun y =>
            if y.entry == i.val then { y with freshness := .stale, deadline := none } else y) }
      let stale := raiseIn s.orders.faults .sourceStale
      let does := fun s1 => ∃ t, exec (.staleExpiry i) s = .next t ∧ Reported s1 t
      let lost := PerAxle.ofFn (fun a =>
        let r : SlideRecord := { s.slide.axles.get a with speed := none, creep := none, relCreep := none }
        if r.state = .sensorLost then { r with consecutive := 0 }
        else { r with state := .sensorLost, limit := 0, consecutive := 0, entryTime := s.time })
      let zero := fun (n : Inverter) => PerAxle.ofFn (fun a =>
        if a.inverter = n then { s.capability.inverters.get a with limit := 0 } else s.capability.inverters.get a)
      let noInverter := fun (n : Inverter) =>
        does (State.takeTrigger .inverterLoss
          { s0 with
            capability := { s.capability with inverters := zero n }
            orders := { s.orders with faults := raiseIn s.orders.faults .inverterStale } })
      (x.role = .none ∨ x.role = .order → does s0)
      ∧ (x.role = .demand → does { s0 with orders := { s.orders with faults := stale } })
      ∧ (x.role = .inverterA → noInverter .a)
      ∧ (x.role = .inverterB → noInverter .b)
      ∧ (x.role = .pressure →
          does
            { s0 with
              orders := { s.orders with faults := stale }
              builder :=
                { s.builder with
                  feedback := ⟨.absent, .absent⟩
                  supervision := PerTruck.ofFn (fun k =>
                    let r := s.builder.supervision.get k
                    if (s.control.trucks.get k).mode = .calibrate then r else { r with state := .suspended }) } })
      ∧ (x.role = .speed →
          let s1 :=
            { s0 with
              orders := { s.orders with faults := stale }
              slide :=
                { s.slide with
                  lastSampleTime := none, axles := lost
                  attention := PerAxle.ofFn (fun a =>
                    s.slide.attention.get a || (s.slide.axles.get a).state != SlideState.sensorLost) } }
          does
            (s1.handOff (Axle.all.filter (fun a => s.builder.copy.get a != SlideState.sensorLost))
              (Axle.all.any (fun a => (lost.get a).limit < s.builder.last.cmd.efforts.get a))))

/-- The demand-loss timer (R29, R35, R36). The first expiry sets the next deadline 20 ms on, DEMAND_LOST, its trigger
(raised before the change of part state: the model's choice, log entry 58) and count 0, and takes ACTIVE and
MAINTENANCE to FALLBACK, where the electric allocations become 0 with their modes kept (the model's choice, log entry
40); a repeat sets its next deadline 20 ms on, computes in FALLBACK alone, and takes a sample. The adhesion recovery,
vent and supervision deadlines (R91, R112, R122): the estimate raised by step_up to a_max at most, the next step 1000
ms on; VENT_EXPIRED without deadline, with its flag and trigger; LATE, with AIR_RESPONSE and its trigger; nothing
else changes. Away from its deadline a command changes nothing (the model's choice, log entry 3). -/
def Obligations.DeadlinesExpire : Prop :=
  (∀ s : State, s.phase = .running → s.noHeld →
    let does := fun c s1 => ∃ t, exec c s = .next t ∧ Reported s1 t
    (s.control.timer ≠ .waiting s.time → exec .demandLossExpiry s = .next s)
    ∧ (s.control.timer ≠ .repeating s.time → exec .demandLossRepeat s = .next s)
    ∧ (s.control.timer = .waiting s.time →
        let s1 :=
          State.takeTrigger .demandLost
            { s with
              control := { s.control with timer := .repeating (s.time + 20) }
              orders := { s.orders with faults := raiseIn s.orders.faults .demandLost } }
        let s2 := { s1 with control := { s1.control with goodCount := 0 } }
        let fallen := fun (u : State) =>
          { u with
            control := { u.control with partState := .fallback }
            blender := { u.blender with alloc := { u.blender.alloc with efforts := PerAxle.const 0 } } }
        (s.control.partState = .standby ∨ s.control.partState = .fallback → does .demandLossExpiry s2)
        ∧ (s.control.partState = .active → does .demandLossExpiry (fallen s2))
        ∧ (s.control.partState = .maintenance → does .demandLossExpiry (fallen s2.leaveMaintenance)))
    ∧ (s.control.timer = .repeating s.time →
        let s1 := { s with control := { s.control with timer := .repeating (s.time + 20) } }
        (s.control.partState ≠ .fallback → does .demandLossRepeat (s1.takeSample .repeatExpiry none))
        ∧ (s.control.partState = .fallback →
            does .demandLossRepeat
              (s1.compute.takeSample .repeatExpiry (s1.compute.blender.record.map (fun r => r.shortfall))))))
  ∧ ∀ s : State, s.phase = .running → s.noHeld →
    let does := fun c s1 => ∃ t, exec c s = .next t ∧ Reported s1 t
    (s.slide.recoveryDeadline = s.time →
      does .adhesionRecoveryStep
        { s with
          slide :=
            { s.slide with
              aEst := min s.tbl.adhesion.aMax.toNat (s.slide.aEst + s.tbl.adhesion.stepUp.toNat)
              recoveryDeadline := s.time + 1000 } })
    ∧ (s.slide.recoveryDeadline ≠ s.time → exec .adhesionRecoveryStep s = .next s)
    ∧ ∀ k : Truck,
      let r := s.builder.trucks.get k
      let v := s.builder.supervision.get k
      (r.action = .vent → r.vent = some s.time →
        does (.ventDeadline k)
          (State.takeTrigger .ventExpired
            { s with
              builder := { s.builder with trucks := s.builder.trucks.set k ⟨.ventExpired, none, none⟩ }
              orders := { s.orders with faults := raiseIn s.orders.faults .ventExpired } }))
      ∧ (r.action ≠ .vent ∨ r.vent ≠ some s.time → exec (.ventDeadline k) s = .next s)
      ∧ (v.state = .armed s.time →
          does (.supervisionDeadline k)
            (State.takeTrigger .airResponse
              { s with
                builder := { s.builder with supervision := s.builder.supervision.set k ⟨.late, v.reference⟩ }
                orders := { s.orders with faults := raiseIn s.orders.faults .airResponse } }))
      ∧ (v.state ≠ .armed s.time → exec (.supervisionDeadline k) s = .next s)

/-- The phases of a lag calibration (R125, R126, R128). 500 ms after the start SETTLE becomes STEP with the step time,
and an emission follows; 5000 ms after the step the measurement fails with AIR_RESPONSE. Every ending frees the slot and
hands over the reply, returns the channel to MANUAL at the latched P_off, removes the record, sets supervision to IDLE at
the last pressure or SUSPENDED, with its reference kept there (the model's reading, log entry 30), and emits while the
part stays in MAINTENANCE. A success first writes the lag, and nothing else, into the active set, with its new CRC, and
into the staged set, whose CRC, once formed, is formed anew (R133, R143). Away from its deadline, or without a
calibration, a command changes nothing (the model's choice, log entry 3). -/
def Obligations.CalibrationEnds : Prop :=
  (∀ s : State, s.phase = .running → s.noHeld → s.builder.calibration = none →
    exec .settleEnd s = .next s ∧ exec .calTimeout s = .next s)
  ∧ (∀ (s : State) (c : Calibration), s.phase = .running → s.noHeld → s.builder.calibration = some c →
    let does := fun i s1 => ∃ t, exec i s = .next t ∧ Reported s1 t
    (c.phase = .settle → c.since + 500 = s.time →
      does .settleEnd
        (State.emitControl
          { s with builder := { s.builder with calibration := some { c with phase := .step, since := s.time } } }))
    ∧ (c.phase = .step ∨ c.since + 500 ≠ s.time → exec .settleEnd s = .next s)
    ∧ (c.phase = .step → c.since + 5000 = s.time →
        does .calTimeout
          (State.endCalibration c .calTimeout (.calibrationEnded (truckNumber c.truck)) false
            { s with orders := { s.orders with faults := raiseIn s.orders.faults .airResponse } }))
    ∧ (c.phase = .settle ∨ c.since + 5000 ≠ s.time → exec .calTimeout s = .next s))
  ∧ (∀ (s : State) (c : Calibration) (res : Result) (data : ReplyData) (leaving : Bool),
    let s1 := s.answerLong res data
    let last := s.builder.last.cmd.pressures.get c.truck
    let ended :=
      { s1 with
        control := { s.control with trucks := s.control.trucks.set c.truck ⟨.manual, c.pOff⟩ }
        builder :=
          { s.builder with
            calibration := none
            supervision :=
              s.builder.supervision.set c.truck
                (if s.roleFreshness .pressure = .fresh then ⟨.idle, last⟩
                else ⟨.suspended, (s.builder.supervision.get c.truck).reference⟩) } }
    (s.control.partState = .maintenance → leaving = false → s.endCalibration c res data leaving = ended.emitControl)
    ∧ (s.control.partState ≠ .maintenance ∨ leaving = true → s.endCalibration c res data leaving = ended)
    ∧ s1.orders.slot = none
    ∧ (∀ l, s.orders.slot = some l →
        s1 = State.handOver l.pid ⟨l.tag, l.name.code, res, data⟩ { s with orders := { s.orders with slot := none } })
    ∧ (s.builder.calibration = none → s.abortCalibration leaving = s)
    ∧ (s.builder.calibration = some c →
        s.abortCalibration leaving = s.endCalibration c .calAborted (.calibrationEnded (truckNumber c.truck)) leaving))
  ∧ ∀ (s : State) (k : Truck) (lag : Nat), lag < 65536 →
    let t := s.writeLag k lag
    t = { s with tables := t.tables }
    ∧ t.tables = { s.tables with active := t.tables.active, staging := t.tables.staging }
    ∧ (t.tbl.trucks.get k).lag.toNat = lag ∧ t.tbl.trucks.get k = { s.tbl.trucks.get k with lag := BitVec.ofNat 16 lag }
    ∧ t.tbl = { s.tbl with trucks := t.tbl.trucks } ∧ (∀ j, j ≠ k → t.tbl.trucks.get j = s.tbl.trucks.get j)
    ∧ t.tables.active = ⟨t.tbl, s.tables.active.number, t.tbl.crc⟩
    ∧ (s.tables.staging = .idle → t.tables.staging = .idle)
    ∧ (let lagged := fun (x : TableSet) =>
        { x with trucks := x.trucks.set k { x.trucks.get k with lag := BitVec.ofNat 16 lag } }
      (∀ x, s.tables.staging = .loading x → t.tables.staging = .loading (lagged x))
      ∧ (∀ x crc r, s.tables.staging = .awaitDecision x crc r →
          t.tables.staging = .awaitDecision (lagged x) (lagged x).crc r)
      ∧ (∀ x crc, s.tables.staging = .pendingSwitch x crc →
          t.tables.staging = .pendingSwitch (lagged x) (lagged x).crc))

/-- PART_STATUS (R196, R197): at the deadline it is emitted on the cab port with the contents of that moment, and the next
deadline set one status period on; a change of part state, class summary or any-attention emits one at once, with the
status of that moment, or, when its own entry into a full queue loses a telegram and changes the class summary, with
QUEUE_DROP in it; its payload has 26 bytes, and a BRAKE_CMD's 21. The model's choices: nothing happens away from the
deadline (log entry 3), changes are reported once, at a command's end, also one that was undone (log entry 7), and the
contents are read before the entry into the queue sets QUEUE_DROP (log entry 62). -/
def Obligations.StatusEmitted : Prop :=
  (∀ s : State, s.phase = .running → s.noHeld →
    (s.orders.statusDeadline ≠ some s.time → exec .statusDeadline s = .next s)
    ∧ (s.orders.statusDeadline = some s.time →
        let s1 := s.enqueueOwn .cab (.partStatus s.status)
        ∃ t, exec .statusDeadline s = .next t
          ∧ Reported
            { s1 with
              orders :=
                { s1.orders with
                  statusDeadline := some (s.time + BitVec.ofNat 32 s.tbl.header.statusPeriod.toNat) } } t))
  ∧ ∀ s : State,
    let p := s.status
    let key := (⟨s.control.partState, classSummary s.orders.faults,
      Axle.all.any s.slide.attention.get⟩ : StatusKey)
    p.partState = s.control.partState ∧ p.staging = s.tables.staging.state ∧ p.thermal = s.capability.thermal
    ∧ p.anyAttention = Axle.all.any s.slide.attention.get ∧ p.summary = classSummary s.orders.faults
    ∧ p.flags = s.orders.faults ∧ p.attention = s.slide.attention
    ∧ (∀ a, p.slide.get a = (s.slide.axles.get a).state) ∧ p.vref = s.slide.vref ∧ p.heat = s.capability.heat
    ∧ p.shortfall = (s.blender.record.map (fun r => r.shortfall)).getD 0 ∧ p.recorder = s.capture.recorder
    ∧ p.newest = (s.store.directory.head?.map (fun e => e.incident)).getD 0
    ∧ p.missedDisarmed = s.capture.missedDisarmed ∧ p.missedFull = s.capture.missedFull
    ∧ p.slot = (s.orders.slot.map (fun l => l.name.code)).getD 0
    ∧ p.payload.length = 26 ∧ (∀ c : BrakeCmd, c.payload.length = 21)
    ∧ (s.orders.reported = some key → s.report = s)
    ∧ (s.phase = .running → s.orders.reported ≠ some key → (s.port .cab).tx.isSome = true →
        let q := s.port .cab
        let raised := raiseIn s.orders.faults .queueDrop
        let loses : Prop := (∀ c, .partStatus c ∉ q.own) ∧ 12 ≤ q.own.length + q.fwd.length ∧ q.fwd ≠ []
        (¬loses ∨ classSummary raised = classSummary s.orders.faults → .partStatus p ∈ (s.report.port .cab).own)
        ∧ (loses → classSummary raised ≠ classSummary s.orders.faults →
            .partStatus { s with orders := { s.orders with faults := raised } }.status ∈ (s.report.port .cab).own)
        ∧ s.report.orders.statusDeadline = some (s.time + BitVec.ofNat 32 s.tbl.header.statusPeriod.toNat))

/-- The inquiries. Without arguments (R60, R82, R107, R130, R146, R186, R194): each answers DONE with the state of its
block as it stands, INQUIRE_BLEND NOT_YET before the first computation. With arguments (R17, R43, R144, R167):
INQUIRE_SOURCE, INQUIRE_CHANNEL, READ_TABLE and READ_RING, with their refusals in the order in which they are judged. None
changes anything. Of SAVE_PROFILE the slot being written is a profile slot (R147); that the head page's attempt is given
one above those made is the model's choice (log entry 43), and so is the entry index of a departing position (log entry
65). -/
def Obligations.InquiriesAnswered : Prop :=
  ∀ (s : State) (o : Origin) (p : Position), Ready s o p →
    let gives := fun c code res data => ∃ t, exec c s = .next t ∧ Answered o p code res data s t
    let b := s.builder
    let left := fun (d : LinkTime) => (d - s.time).toNat
    let curve := s.tbl.curve s.slide.vref
    gives (.inquireCapability o) 0x20 .done (.capability
      { axles := PerAxle.ofFn (fun a =>
          let i := s.capability.inverters.get a
          ⟨s.tbl.present a, if s.tbl.present a then s.tbl.rating a else 0, i.limit, i.achieved, i.fault⟩)
        inverterA := s.roleFreshness .inverterA, inverterB := s.roleFreshness .inverterB
        heat := s.capability.heat, remIn := s.capability.remIn, remCool := s.capability.remCool
        thermal := s.capability.thermal, derate := s.derateFactor, curve := curve
        derated := curve * s.derateFactor / 1024 })
    ∧ (s.blender.record = none → gives (.inquireBlend o) 0x28 .notYet .empty)
    ∧ (∀ r, s.blender.record = some r → gives (.inquireBlend o) 0x28 .done (.blend r s.blender.alloc))
    ∧ gives (.inquireSlide o) 0x31 .done (.slide
        { vref := s.slide.vref, lastSampleTime := s.slide.lastSampleTime, aEst := s.slide.aEst
          toRecovery := left s.slide.recoveryDeadline, attention := s.slide.attention, axles := s.slide.axles })
    ∧ gives (.inquireCommand o) 0x39 .done (.command
        { last := b.last
          trucks := PerTruck.ofFn (fun k =>
            { action := (b.trucks.get k).action, hold := (b.trucks.get k).hold
              ventLeft := ((b.trucks.get k).vent.map left).getD 0, feedback := b.feedback.get k
              supervision := (b.supervision.get k).state, reference := (b.supervision.get k).reference
              deadlineLeft := (match (b.supervision.get k).state with
                | .armed d => left d
                | _ => 0) })
          calibration := b.calibration.map (fun c => (c.truck, c.phase, (s.time - c.since).toNat, c.threshold)) })
    ∧ gives (.listProfiles o) 0x45 .done
        (.profiles [.valid 0 factorySet.crc, s.tables.slots.info 1, s.tables.slots.info 2, s.tables.slots.info 3]
          s.tables.selection (s.tables.save.bind (fun r => if r.slot = 0 then none else some r.slot)))
    ∧ gives (.inquireStore o) 0x66 .done (.storeInfo
        { scan := s.store.scan, banks := s.store.banks, writable := s.store.writable, queued := s.store.queue.length
          head := s.store.queue.head?.map (fun q => (q.page.seq, q.attempts + 1)), op := s.store.op
          nextIncident := s.store.nextIncident, pins := s.store.pins, cursor := s.store.cursor })
    ∧ gives (.inquire o) 0x70 .done (.partInfo
        { vendor := 0x0E2A, part := 0x0B06, revision := 1, setNumber := s.tables.active.number
          setCrc := s.tables.active.crc, selection := s.tables.selection, staging := s.tables.staging.state
          restarts := s.orders.restarts, discards := s.orders.positions.map (fun q => (q.entry, q.discards)) })
    ∧ (∀ entry : U8,
      ((∀ x ∈ s.sources, x.entry ≠ entry.toNat) → gives (.inquireSource o entry) 0x02 .refusedArg .empty)
      ∧ ∀ x, s.sources.find? (fun y => y.entry == entry.toNat) = some x →
          gives (.inquireSource o entry) 0x02 .done (.source
            { role := x.role, freshness := x.freshness, lastSeq := x.lastSeq, lastArrival := x.lastArrival
              timeLeft := (match x.deadline with
                | some d => (d - s.time).toNat
                | none => 0)
              duplicates := x.duplicates, gaps := x.gaps, contentErrors := x.contentErrors }))
    ∧ (∀ channel : U8,
        let n := channel.toNat
        (n = 0 ∨ 8 < n → gives (.inquireChannel o channel) 0x16 .refusedArg .empty)
        ∧ (∀ a : Axle, n = a.bit + 1 →
            gives (.inquireChannel o channel) 0x16 .done (.channel
              { channel := n, present := s.tbl.present a
                modes := if s.tbl.present a then [.off, .auto, .manual] else [.off], minimum := 0
                maximum := if s.tbl.present a then s.tbl.rating a else 0, mode := (s.control.axles.get a).mode
                manual := (s.control.axles.get a).manual, lag := none }))
        ∧ (∀ k : Truck, n = truckNumber k →
            gives (.inquireChannel o channel) 0x16 .done (.channel
              { channel := n, present := true, modes := [.off, .auto, .manual, .calibrate], minimum := 0
                maximum := (s.tbl.trucks.get k).pMax.toNat, mode := (s.control.trucks.get k).mode
                manual := (s.control.trucks.get k).manual, lag := some (s.tbl.trucks.get k).lag.toNat })))
    ∧ (∀ selector sect start count : U8,
        let read := Instr.readTable o selector sect start count
        let items := fun (x : TableSet) (y : Sect) (ident : SetIdentity) =>
          (start.toNat < y.items → 1 ≤ count.toNat → count.toNat ≤ y.mostPerLoad →
            gives read 0x44 .done
              (.items ident ((List.range count.toNat).flatMap (fun k => x.itemBytes y ((start.toNat + k) % y.items)))))
          ∧ (y.items ≤ start.toNat ∨ count = 0 ∨ y.mostPerLoad < count.toNat → gives read 0x44 .refusedArg .empty)
        (2 ≤ selector.toNat → gives read 0x44 .refusedArg .empty)
        ∧ (selector = 1 → s.tables.staging = .idle → gives read 0x44 .refusedState .empty)
        ∧ (selector = 0 → Sect.ofCode sect = none → gives read 0x44 .refusedArg .empty)
        ∧ (selector = 1 → s.tables.staging ≠ .idle → Sect.ofCode sect = none → gives read 0x44 .refusedArg .empty)
        ∧ ∀ y, Sect.ofCode sect = some y →
            (selector = 0 → items s.tables.active.tables y (.active s.tables.active.number s.tables.active.crc))
            ∧ (∀ x, selector = 1 → s.tables.staging = .loading x → items x y .absent)
            ∧ (∀ x crc r, selector = 1 → s.tables.staging = .awaitDecision x crc r → items x y (.staged crc r))
            ∧ (∀ x crc, selector = 1 → s.tables.staging = .pendingSwitch x crc → items x y (.staged crc none)))
    ∧ ∀ (offset : U16) (count : U8),
        let ring := s.capture.ring
        (count ≠ 1 → gives (.readRing o offset count) 0x53 .refusedArg .empty)
        ∧ (count = 1 → ring = [] → gives (.readRing o offset count) 0x53 .notYet .empty)
        ∧ ∀ back x, count = 1 → back = offset.toNat % ring.length → ring.reverse[back]? = some x →
            gives (.readRing o offset count) 0x53 .done (.ringSample ring.length back x)

/-- LINK_COUNTS and INQUIRE_RECORDER (R16, R168): each answers DONE with the counts and states as they stand, and with
its clear flag then makes the six counts, or both missed counts, 0, and changes nothing else. -/
def Obligations.CountsReadAndCleared : Prop :=
  ∀ (s : State) (o : Origin) (p : Position) (clear : U8), Ready s o p →
    let counts := ReplyData.linkCounts s.ports.cab.counts s.ports.drive.counts
    let c := s.capture
    let info := ReplyData.recorder
      { recorder := c.recorder, fill := c.ring.length, newest := c.ring.reverse.head?.map (fun x => x.index)
        counter := c.counter, missedDisarmed := c.missedDisarmed, missedFull := c.missedFull
        capture := c.record.map (fun r =>
          { flushing := decide (r.phase ≠ .collecting), incident := r.incident, kind := r.kind, cls := r.cls
            pre := r.pre, post := r.post, countdown := r.countdown, cursor := r.cursor, nextPage := r.nextPage
            lost := r.lost, extraCount := r.extraCount }) }
    (∃ t, exec (.linkCounts o clear) s = .next t
      ∧ Answered o p 0x01 .done counts
        (if clear = 0 then s
        else
          { s with
            ports := ⟨{ s.ports.cab with counts := ⟨0, 0, 0⟩ }, { s.ports.drive with counts := ⟨0, 0, 0⟩ }⟩ }) t)
    ∧ ∃ t, exec (.inquireRecorder o clear) s = .next t
      ∧ Answered o p 0x54 .done info
        (if clear = 0 then s else { s with capture := { c with missedDisarmed := 0, missedFull := 0 } }) t

/-- The four orders of part state (R21 to R27, R66, R110, R141): ENGAGE and ENTER_MAINT from STANDBY under their
conditions, with both actions derived from the efforts last emitted; RELEASE_CONTROL and LEAVE_MAINT into STANDBY, where
the allocation table becomes 0 with its modes kept (the model's choice, log entry 40), the actions NORMAL, and MANUAL
channels AUTO; every refusal with the part state as it is. RELEASE_CONTROL makes a pending switch, in STANDBY, and is
answered at its source's position even where the switch removes that; a departing position that owes nothing more ends
with the command (the model's choice, log entry 8). A LEAVE_MAINT that aborts a calibration has CALIBRATE's reply handed
over first; that its own reply waits behind CALIBRATE's to the same source is the model's choice (log entry 45). -/
def Obligations.PartStateOrders : Prop :=
  ∀ (s : State) (o : Origin) (p : Position), Ready s o p →
    let now := s.control.partState
    let present : Prop := s.roleFreshness .demand = .fresh ∧ ∀ d, s.control.timer ≠ .repeating d
    let gives := fun c code res s1 => ∃ t, exec c s = .next t ∧ Answered o p code res (.partState s1.control.partState) s1 t
    let entered := fun x =>
      State.deriveActions s.builder.last.cmd.efforts { s with control := { s.control with partState := x } }
    let stood := fun (u : State) =>
      { u with
        control := { u.control with partState := .standby }
        blender :=
          { u.blender with alloc := { u.blender.alloc with efforts := PerAxle.const 0, air := ⟨0, 0⟩, pressures := ⟨0, 0⟩ } }
        builder := { u.builder with trucks := ⟨⟨.normal, none, none⟩, ⟨.normal, none, none⟩⟩ } }
    let released : Prop := now = .fallback ∨
      now = .active ∧ (∀ d, s.control.demand = some d → d.clamped = 0 ∧ d.emergency = false)
    let atRest : Prop := s.roleFreshness .speed = .fresh ∧ s.slide.vref = 0
    let auto := fun (e : ChannelEntry) => if e.mode = .manual then ⟨.auto, 0⟩ else e
    let numbered : Prop := s.orders.positions.length ≤ 8 ∧ (s.orders.positions.map (fun q => q.pid)).Nodup
      ∧ ∀ q ∈ s.orders.positions, q.pid < s.orders.nextPid
    let settled := fun (s1 t : State) =>
      (∀ q ∈ t.orders.positions, q.departing = true →
        q.queued = true ∨ ∃ l, s.orders.slot = some l ∧ l.pid = q.pid)
      ∧ ∀ q ∈ s1.orders.positions, q.departing = false →
          ∃ q1 ∈ t.orders.positions, q1.pid = q.pid ∧ q1.entry = q.entry ∧ q1.key = q.key ∧ q1.departing = false
            ∧ q1.held = none ∧ q1.deferred = none
    (now = .standby → present → gives (.engage o) 0x10 .done (entered .active))
    ∧ (now = .standby → ¬present → gives (.engage o) 0x10 .noDemand s)
    ∧ (now ≠ .standby → gives (.engage o) 0x10 .refusedState s)
    ∧ (now = .standby → ¬atRest → gives (.enterMaint o) 0x12 .refusedState s)
    ∧ (now = .standby → atRest → ¬present → gives (.enterMaint o) 0x12 .noDemand s)
    ∧ (now = .standby → atRest → present → gives (.enterMaint o) 0x12 .done (entered .maintenance))
    ∧ (now ≠ .standby → gives (.enterMaint o) 0x12 .refusedState s)
    ∧ (released → (∀ x crc, s.tables.staging ≠ .pendingSwitch x crc) → gives (.releaseControl o) 0x11 .done (stood s))
    ∧ (∀ x crc, released → s.tables.staging = .pendingSwitch x crc →
        let s1 := (stood s).switchTo x crc false
        (∃ t, exec (.releaseControl o) s = .next t ∧ ReportOnly s1 t)
        ∧ (s1.orders.positions = s.orders.positions → gives (.releaseControl o) 0x11 .done s1)
        ∧ (numbered →
            ∃ t, exec (.releaseControl o) s = .next t ∧ t.replied p.key.port p.pid ⟨o.tag, 0x11, .done, .partState .standby⟩
              ∧ settled s1 t))
    ∧ (now = .active → ¬released → gives (.releaseControl o) 0x11 .demandNonzero s)
    ∧ (now = .standby ∨ now = .maintenance → gives (.releaseControl o) 0x11 .refusedState s)
    ∧ (now ≠ .maintenance → gives (.leaveMaint o) 0x13 .refusedState s)
    ∧ (now = .maintenance → s.builder.calibration = none →
        gives (.leaveMaint o) 0x13 .done
          (stood
            { s with
              control :=
                { s.control with
                  axles := PerAxle.ofFn (fun a => auto (s.control.axles.get a))
                  trucks := PerTruck.ofFn (fun k => auto (s.control.trucks.get k)) } }))
    ∧ (∀ c, now = .maintenance → s.builder.calibration = some c →
        let u := s.abortCalibration true
        let u1 := stood
          { u with
            control :=
              { u.control with
                axles := PerAxle.ofFn (fun a => auto (u.control.axles.get a))
                trucks := PerTruck.ofFn (fun k => auto (u.control.trucks.get k)) } }
        ∃ t, exec (.leaveMaint o) s = .next t ∧ ReportOnly u1 t
          ∧ t = (u1.report.handOver p.pid ⟨o.tag, 0x13, .done, .partState .standby⟩).report
          ∧ ∀ l z, s.orders.slot = some l → s.position l.pid = some z → z.queued = false →
              t.replied z.key.port z.pid ⟨l.tag, l.name.code, .calAborted, .calibrationEnded (truckNumber c.truck)⟩
              ∧ (z.pid ≠ p.pid → t.replied p.key.port p.pid ⟨o.tag, 0x13, .done, .partState .standby⟩))

/-- SET_MODE and SET_VALUE (R38 to R41), case by case in the order in which they are judged. A SET_MODE that names a
channel in calibration first aborts the calibration, whatever its mode byte, and is judged on what that leaves: that, and
the channel's data in a refusal, are the model's reading (log entry 29); that a refused channel number gives no data is
its choice (log entry 63). CALIBRATE's reply is handed over first; a reply
to the same source waits behind it (the model's choice, log entry 45). -/
def Obligations.ChannelOrdersJudged : Prop :=
  ∀ (s : State) (o : Origin) (p : Position) (byte mode : U8) (value : U16), Ready s o p →
    let gives := fun c code res data s1 => ∃ t, exec c s = .next t ∧ Answered o p code res data s1 t
    let set := Instr.setMode o byte mode
    let data := fun (u : State) (c : Channel) =>
      ReplyData.channelMode byte.toNat (u.channel c).mode (u.channel c).manual
    (Channel.ofByte byte = none ↔ byte = 0 ∨ 8 < byte.toNat)
    ∧ (∀ c, Channel.ofByte byte = some c → c.number = byte.toNat)
    ∧ (Channel.ofByte byte = none →
        gives set 0x14 .refusedArg .empty s ∧ gives (.setValue o byte value) 0x15 .refusedArg .empty s)
    ∧ ∀ c, Channel.ofByte byte = some c →
      let now := s.channel c
      let present : Prop := match c with
        | .axle a => s.tbl.present a = true
        | .truck _ => True
      let top := match c with
        | .axle a => if s.tbl.present a then s.tbl.rating a else 0
        | .truck k => (s.tbl.trucks.get k).pMax.toNat
      let with' := fun (u : State) (e : ChannelEntry) => match c with
        | .axle a => { u with control := { u.control with axles := u.control.axles.set a e } }
        | .truck k => { u with control := { u.control with trucks := u.control.trucks.set k e } }
      ((∀ k, s.builder.calibration = some k → c ≠ .truck k.truck) →
        (3 ≤ mode.toNat → gives set 0x14 .refusedArg (data s c) s)
        ∧ ∀ m, Mode.ofByte mode = some m → m ≠ .calibrate →
          (¬present → m ≠ .off → gives set 0x14 .refusedArg (data s c) s)
          ∧ (present → m = .manual → s.control.partState ≠ .maintenance → gives set 0x14 .refusedState (data s c) s)
          ∧ ((present ∨ m = .off) → (m = .manual → s.control.partState = .maintenance) →
              (m = now.mode → gives set 0x14 .done (data s c) s)
              ∧ (m ≠ now.mode →
                  gives set 0x14 .done (.channelMode byte.toNat m 0) (with' s ⟨m, 0⟩))))
      ∧ (∀ k, s.builder.calibration = some k → c = .truck k.truck →
          let u := s.abortCalibration false
          let ends := fun res data s1 =>
            ∃ t, exec set s = .next t ∧ ReportOnly s1 t ∧ t = (s1.report.handOver p.pid ⟨o.tag, 0x14, res, data⟩).report
              ∧ ∀ l z, s.orders.slot = some l → s.position l.pid = some z → z.queued = false →
                  t.replied z.key.port z.pid ⟨l.tag, l.name.code, .calAborted, .calibrationEnded (truckNumber k.truck)⟩
                  ∧ (z.pid ≠ p.pid → t.replied p.key.port p.pid ⟨o.tag, 0x14, res, data⟩)
          (3 ≤ mode.toNat → ends .refusedArg (.channelMode byte.toNat .manual k.pOff) u)
          ∧ ∀ m, Mode.ofByte mode = some m → m ≠ .calibrate →
            (m = .manual → s.control.partState = .maintenance →
              ends .done (.channelMode byte.toNat .manual k.pOff) u)
            ∧ (m = .manual → s.control.partState ≠ .maintenance →
                ends .refusedState (.channelMode byte.toNat .manual k.pOff) u)
            ∧ (m ≠ .manual → ends .done (.channelMode byte.toNat m 0) (with' u ⟨m, 0⟩)))
      ∧ (now.mode = .manual →
          let v := min value.toNat top
          gives (.setValue o byte value) 0x15 .done (.manualValue v) (with' s ⟨.manual, v⟩))
      ∧ (now.mode ≠ .manual → gives (.setValue o byte value) 0x15 .valueHeld (.manualValue now.manual) s)

/-- CLEAR_ATTENTION (R105): bits 6 and 7 refuse it; else each named axle's attention bit is cleared, and kept set where
its state is SLIDING, LOCKED or SENSOR_LOST; the other bits stay, and the reply carries the mask. -/
def Obligations.AttentionCleared : Prop :=
  ∀ (s : State) (o : Origin) (p : Position) (axles : U8), Ready s o p →
    let mask := PerAxle.ofFn (fun a =>
      if axles.getLsbD a.bit = true then
        (match (s.slide.axles.get a).state with
          | .sliding => true
          | .locked => true
          | .sensorLost => true
          | _ => false)
      else s.slide.attention.get a)
    (axles.getLsbD 6 = true ∨ axles.getLsbD 7 = true →
      ∃ t, exec (.clearAttention o axles) s = .next t ∧ Answered o p 0x30 .refusedArg .empty s t)
    ∧ (axles.getLsbD 6 = false → axles.getLsbD 7 = false →
        ∃ t, exec (.clearAttention o axles) s = .next t
          ∧ Answered o p 0x30 .done (.attention mask) { s with slide := { s.slide with attention := mask } } t)

/-- CALIBRATE with the slot free (R124, R125): a channel other than 7 or 8 is refused, and so is one outside MAINTENANCE
at rest with the channel MANUAL, the action NORMAL and the PRESSURE source FRESH; else the slot is kept, the channel
becomes CALIBRATE, the record holds the latched pressures and their threshold, supervision is IDLE, and an emission with
P_off follows. -/
def Obligations.CalibrationStarts : Prop :=
  ∀ (s : State) (o : Origin) (p : Position) (channel : U8), Ready s o p → s.orders.slot = none →
    let refused := fun res =>
      ∃ t, exec (.calibrate o channel) s = .next t ∧ Handed p ⟨o.tag, 0x38, res, .empty⟩ s t
    (channel ≠ 7 → channel ≠ 8 → refused .refusedArg)
    ∧ ∀ k : Truck, channel.toNat = truckNumber k →
      let admitted : Prop := s.control.partState = .maintenance ∧ s.slide.vref = 0
        ∧ (s.control.trucks.get k).mode = .manual ∧ (s.builder.trucks.get k).action = .normal
        ∧ s.roleFreshness .pressure = .fresh
      let e := s.tbl.trucks.get k
      let pOff := e.pOff.toNat
      let pCal := e.pCal.toNat
      (¬admitted → refused .refusedState)
      ∧ (admitted →
          let s1 :=
            { s with
              orders := { s.orders with slot := some ⟨.calibrate, o.tag, p.pid⟩ }
              control :=
                { s.control with
                  trucks := s.control.trucks.set k ⟨.calibrate, (s.control.trucks.get k).manual⟩ }
              builder :=
                { s.builder with
                  calibration :=
                    some ⟨k, .settle, s.time, pOff, pCal, pOff + 9 * (pCal - pOff) / 10, p.pid, o.tag⟩
                  supervision := s.builder.supervision.set k ⟨.idle, (s.builder.supervision.get k).reference⟩ } }
          ∃ t, exec (.calibrate o channel) s = .next t ∧ Reported s1.emitControl t)

/-- LOAD (R134 to R137), case by case. A refusal changes nothing. A LOAD that is taken writes its items, one at a time
with the wrap of R136, into a copy of the active set (clearing CHECK_FAILED) or the set in LOADING, so that an index's
last item stands and the other items are kept; with the last flag the whole set is checked, its CRC formed, and a failing
result sets CHECK_FAILED. A change of the class summary by the clearing is reported even where the flag is set again
(R196; log entry 7). -/
def Obligations.LoadsWritten : Prop :=
  (∀ (s : State) (o : Origin) (p : Position) (sect start count last : U8) (items : Bytes), Ready s o p →
    let gives := fun res data s1 =>
      ∃ t, exec (.load o sect start count last items) s = .next t ∧ Answered o p 0x40 res data s1 t
    let open' : Prop := s.tables.staging = .idle ∨ ∃ x, s.tables.staging = .loading x
    (¬open' → gives .refusedBusy .empty s)
    ∧ (open' → Sect.ofCode sect = none → gives .refusedArg .empty s)
    ∧ ∀ y, Sect.ofCode sect = some y →
      let reach := (List.range count.toNat).map (fun k => (start.toNat + k) % y.items)
      let admitted : Prop := start.toNat < y.items ∧ 1 ≤ count.toNat ∧ count.toNat ≤ y.mostPerLoad ∧ last.toNat ≤ 1
        ∧ items.length = (reach.map y.itemSize).sum
      let writes := fun (base : TableSet) (faults : BitVec 17) =>
        let x := TableSet.writeItems y reach items base
        let owed := if classSummary faults = classSummary s.orders.faults then s.orders.reported else none
        let staged := fun st f =>
          { s with
            tables := { s.tables with staging := st }, orders := { s.orders with faults := f, reported := owed } }
        (last = 0 →
          gives .done (.nextItem y.code ((start.toNat + count.toNat) % y.items)) (staged (.loading x) faults))
        ∧ (last = 1 →
          gives .done (.checked x.check x.crc)
            (staged (.awaitDecision x x.crc x.check) (if x.check = none then faults else raiseIn faults .checkFailed)))
      (open' → ¬admitted → gives .refusedArg .empty s)
      ∧ (s.tables.staging = .idle → admitted → writes s.tbl (clearIn s.orders.faults .checkFailed))
      ∧ (∀ x, s.tables.staging = .loading x → admitted → writes x s.orders.faults))
  ∧ ∀ (x : TableSet) (y : Sect) (reach : List Nat) (items : Bytes),
    x.entries.length = 32 → x.breakpoints.length = 16 → x.triggers.length = 12 → (∀ i ∈ reach, i < y.items) →
    items.length = (reach.map y.itemSize).sum →
    let z := TableSet.writeItems y reach items x
    (∀ before i after, reach = before ++ i :: after → i ∉ after →
      z.itemBytes y i = (items.drop ((before.map y.itemSize).sum)).take (y.itemSize i))
    ∧ ∀ (u : Sect) (j : Nat), j < u.items → (u = y → j ∉ reach) → z.itemBytes u j = x.itemBytes u j

/-- ACCEPT (R139, R141): only in AWAIT_DECISION; a failing result is given back; a passing one is made the active set at
once in STANDBY and MAINTENANCE, and waits in ACTIVE and FALLBACK. (What a switch does: SwitchRebuilds.) The reply goes
to the source's position even where the switch removes it, and a departing position that owes nothing more ends, at the
end of the command (the model's choice, log entry 8). -/
def Obligations.AcceptDecides : Prop :=
  ∀ (s : State) (o : Origin) (p : Position), Ready s o p →
    let gives := fun res data s1 => ∃ t, exec (.accept o) s = .next t ∧ Answered o p 0x41 res data s1 t
    let now := s.control.partState
    ((∀ x crc r, s.tables.staging ≠ .awaitDecision x crc r) → gives .refusedState .empty s)
    ∧ (∀ x crc f, s.tables.staging = .awaitDecision x crc (some f) → gives .checkFailed (.checkResult (some f)) s)
    ∧ ∀ x crc, s.tables.staging = .awaitDecision x crc none →
        (now = .active ∨ now = .fallback →
          gives .done (.pendingAccept .pendingSwitch)
            { s with tables := { s.tables with staging := .pendingSwitch x crc } })
        ∧ (now = .standby ∨ now = .maintenance →
            let s1 := s.switchTo x crc false
            (∃ t, exec (.accept o) s = .next t ∧ ReportOnly s1 t)
            ∧ (s1.orders.positions = s.orders.positions →
                gives .done (.accepted .idle (s.tables.active.number + 1) crc) s1)
            ∧ (s.orders.positions.length ≤ 8 → (s.orders.positions.map (fun q => q.pid)).Nodup → (∀ q ∈ s.orders.positions, q.pid < s.orders.nextPid) →
                ∃ t, exec (.accept o) s = .next t
                  ∧ t.replied p.key.port p.pid ⟨o.tag, 0x41, .done, .accepted .idle (s.tables.active.number + 1) crc⟩
                  ∧ (∀ q ∈ t.orders.positions, q.departing = true →
                      q.queued = true ∨ ∃ l, s.orders.slot = some l ∧ l.pid = q.pid)
                  ∧ ∀ q ∈ s1.orders.positions, q.departing = false →
                      ∃ q1 ∈ t.orders.positions, q1.pid = q.pid ∧ q1.entry = q.entry ∧ q1.key = q.key
                        ∧ q1.departing = false ∧ q1.held = none ∧ q1.deferred = none))

/-- A table switch (R11, R42, R59, R106, R142, R193), effect by effect: the staged set active with its CRC and the next
number; source records that keep key and role keep their state, their deadline formed anew, the others begin in NEVER; a
role that was fresh and is not any more is reported stale, with its consumer's effects (R10, R50, R100, R123); channels,
thermal state, slide limits and the adhesion estimate are brought within the new set. An ORDER record that keeps its key
keeps its reply position under the new entry; a removed one's departs, its held order discarded and counted; a new one
begins CLEAR, and holds its orders while one departs. Then reclaim is judged (in the store's work), TABLE_SWITCH is raised,
and the slide monitor hands over what changed, asking for a re-emission unless the switch is part of a computation. That
the effects come in this order is the model's choice (log entry 18), and so is the hand-off after the trigger (log entry
16). -/
def Obligations.SwitchRebuilds : Prop :=
  ∀ (s : State) (x : TableSet) (crc : U16) (atComputation : Bool),
    let t := s.switchTo x crc atComputation
    let freshIn := fun (l : List SourceRecord) (r : Role) => ∃ y ∈ l, y.role = r ∧ y.freshness = .fresh
    let lost := fun r => r ∈ [Role.demand, .speed, .inverterA, .inverterB, .pressure] ∧ freshIn s.sources r ∧ ¬freshIn t.sources r
    t.tables = { s.tables with active := ⟨x, s.tables.active.number + 1, crc⟩, staging := .idle }
    ∧ t.pending = s.pending ∧ t.time = s.time ∧ t.phase = s.phase ∧ t.blender = s.blender
    ∧ t.builder.calibration = s.builder.calibration
    ∧ (∀ i k, i < 32 → (x.entry i).roled = true → (x.entry i).key = some k →
        let e := x.entry i
        ∃ y ∈ t.sources, y.entry = i
          ∧ (match s.sources.find? (fun z => z.key == k && z.role == e.roleOf) with
            | none => y = SourceRecord.initial i k e.roleOf
            | some z =>
              let d := z.lastArrival.map (fun a => a + BitVec.ofNat 32 (max 1 e.stale.toNat))
              if z.freshness ≠ .fresh ∨ d = none then y = { z with entry := i }
              else if d.any (fun a => isAfter a s.time) = true then y = { z with entry := i, deadline := d }
              else y = { z with entry := i, freshness := .stale, deadline := none }))
    ∧ (∀ y ∈ t.sources, y.entry < 32 ∧ (x.entry y.entry).roled = true)
    ∧ t.control =
        { s.control with
          axles := PerAxle.ofFn (fun a =>
            let e := s.control.axles.get a
            if x.present a = false then ⟨.off, 0⟩
            else if e.mode = .manual then ⟨.manual, min e.manual (x.rating a)⟩ else e)
          trucks := PerTruck.ofFn (fun k =>
            let e := s.control.trucks.get k
            if e.mode = .manual then ⟨.manual, min e.manual (x.trucks.get k).pMax.toNat⟩ else e) }
    ∧ t.capability.thermal = thermalNext x.thermal s.capability.thermal s.capability.heat
    ∧ t.capability.heat = s.capability.heat ∧ t.capability.remIn = s.capability.remIn
    ∧ t.capability.remCool = s.capability.remCool
    ∧ (∀ a, ¬lost (inverterRole a.inverter) → t.capability.inverters.get a = s.capability.inverters.get a)
    ∧ (¬lost .speed →
        t.slide =
          { s.slide with
            aEst :=
              if s.slide.aEst < x.adhesion.aMin.toNat then x.adhesion.aMin.toNat
              else min s.slide.aEst x.adhesion.aMax.toNat
            axles := PerAxle.ofFn (fun a =>
              let r := s.slide.axles.get a
              let top := if x.present a then x.rating a else 0
              { r with limit := if r.state = .adhered then top else min r.limit top }) })
    ∧ (lost .demand ∨ lost .speed ∨ lost .pressure → t.flag .sourceStale = true)
    ∧ (∀ q ∈ t.orders.positions,
        (q.departing = true → q.held = none ∧ ∃ q0 ∈ s.orders.positions, q0.pid = q.pid ∧ q0.key = q.key
            ∧ q.discards = (if q0.held.isSome then min 65535 (q0.discards + 1) else q0.discards))
        ∧ (q.departing = false → ∃ y ∈ t.sources, y.role = .order ∧ y.entry = q.entry ∧ y.key = q.key
            ∧ ((q.held = none ∧ q.deferred = none ∧ q.discards = 0)
              ∨ ∃ q0 ∈ s.orders.positions, q0.pid = q.pid ∧ q0.key = q.key ∧ q0.held = q.held
                ∧ q0.deferred = q.deferred ∧ q0.discards = q.discards)))
    ∧ (∀ y ∈ t.sources, y.role = .order →
        ∃ q ∈ t.orders.positions, q.departing = false ∧ q.entry = y.entry ∧ q.key = y.key)
    ∧ ((s.orders.positions.map (fun q => q.pid)).Nodup → (∀ q ∈ s.orders.positions, q.pid < s.orders.nextPid) →
        ((s.orders.positions.filter (fun q => !q.departing)).map (fun q => q.key)).Nodup → x.checkKey = none →
        ((s.port .drive).tx = none → (s.port .drive).own = []) →
        let old := s.orders.positions
        let new := t.orders.positions
        let kept := fun (q : Position) => q.departing = false ∧ ∃ y ∈ t.sources, y.role = .order ∧ y.key = q.key
        (∀ q ∈ old, ∀ y ∈ t.sources, q.departing = false → y.role = .order → y.key = q.key →
          { q with entry := y.entry, fresh := q.fresh && new.any (fun z => z.departing) } ∈ new)
        ∧ (∀ q ∈ old, ¬kept q →
            { q with
              departing := true, held := none
              discards := if q.held.isSome then min 65535 (q.discards + 1) else q.discards } ∈ new)
        ∧ (∀ y ∈ t.sources, y.role = .order → (∀ q ∈ old, q.departing = false → q.key ≠ y.key) →
            ∃ pid, s.orders.nextPid ≤ pid ∧ pid < t.orders.nextPid
              ∧ (⟨pid, y.entry, y.key, false, none, none, 0, false, new.any (fun z => z.departing)⟩ : Position) ∈ new)
        ∧ new.length = (t.sources.filter (fun y => y.role == .order)).length
            + (old.filter (fun q => q.departing || !t.sources.any (fun y => y.role == .order && y.key == q.key))).length
        ∧ (new.map (fun q => q.pid)).Nodup)
    ∧ (let went := fun (u : State) (r : Role) =>
        let stale := raiseIn u.orders.faults .sourceStale
        let zero := fun (n : Inverter) => PerAxle.ofFn (fun a =>
          if a.inverter = n then { u.capability.inverters.get a with limit := 0 } else u.capability.inverters.get a)
        let noInverter := fun (n : Inverter) =>
          State.takeTrigger .inverterLoss
            { u with
              capability := { u.capability with inverters := zero n }
              orders := { u.orders with faults := raiseIn u.orders.faults .inverterStale } }
        match r with
        | .demand => { u with orders := { u.orders with faults := stale } }
        | .speed =>
          { u with
            orders := { u.orders with faults := stale }
            slide :=
              { u.slide with
                lastSampleTime := none
                axles := PerAxle.ofFn (fun a =>
                  let y : SlideRecord := { u.slide.axles.get a with speed := none, creep := none, relCreep := none }
                  if y.state = .sensorLost then { y with consecutive := 0 }
                  else { y with state := .sensorLost, limit := 0, consecutive := 0, entryTime := u.time })
                attention := PerAxle.ofFn (fun a =>
                  u.slide.attention.get a || (u.slide.axles.get a).state != SlideState.sensorLost) } }
        | .inverterA => noInverter .a
        | .inverterB => noInverter .b
        | .pressure =>
          { u with
            orders := { u.orders with faults := stale }
            builder :=
              { u.builder with
                feedback := ⟨.absent, .absent⟩
                supervision := PerTruck.ofFn (fun k =>
                  if (u.control.trucks.get k).mode = .calibrate then u.builder.supervision.get k
                  else { u.builder.supervision.get k with state := .suspended }) } }
        | _ => u
      let u0 := { s with tables := t.tables, sources := t.sources }
      ∀ gone : List Role, gone.Sublist [.demand, .speed, .inverterA, .inverterB, .pressure] → (∀ r, r ∈ gone ↔ lost r) →
        let u1 := gone.foldl went u0
        let heat := thermalNext x.thermal s.capability.thermal s.capability.heat
        let u2 := { u1 with control := t.control, capability := { u1.capability with thermal := heat } }
        let u3 :=
          if heat = s.capability.thermal then u2
          else
            match heat with
            | .normal => u2
            | .derate => { u2 with orders := { u2.orders with faults := raiseIn u2.orders.faults .thermalDerate } }
            | .trip =>
              State.takeTrigger .thermalTrip
                { u2 with orders := { u2.orders with faults := raiseIn u2.orders.faults .thermalTrip } }
        let below := decide (s.slide.aEst < x.adhesion.aMin.toNat)
        let u4 :=
          { u3 with
            slide := t.slide
            orders :=
              { u3.orders with
                positions := t.orders.positions, nextPid := t.orders.nextPid
                faults := if below then raiseIn u3.orders.faults .adhesionLow else u3.orders.faults } }
        let u5 := (State.runStore u4).takeTrigger .tableSwitch
        let changed := Axle.all.filter (fun a => (u5.slide.axles.get a).state != u5.builder.copy.get a)
        let asks := !atComputation
          && Axle.all.any (fun a => (u5.slide.axles.get a).limit < u5.builder.last.cmd.efforts.get a)
        (u4.slide.axles = PerAxle.ofFn (fun a =>
            let y := u1.slide.axles.get a
            let top := if x.present a then x.rating a else 0
            { y with limit := if y.state = .adhered then top else min y.limit top }))
        ∧ u4.slide.aEst = (if below then x.adhesion.aMin.toNat else min s.slide.aEst x.adhesion.aMax.toNat)
        ∧ u4.slide.attention = u1.slide.attention ∧ u4.slide.vref = s.slide.vref
        ∧ u4.slide.lastSampleTime = u1.slide.lastSampleTime ∧ u4.slide.recoveryDeadline = s.slide.recoveryDeadline
        ∧ t = u5.handOff changed asks)

/-- REJECT and ABANDON (R140), each only in its own staging state, discard the staged set and leave everything else; no
order makes staging IDLE while LOADING, and a LOAD with the last flag moves LOADING to AWAIT_DECISION. -/
def Obligations.StagedSetDiscarded : Prop :=
  ∀ (s : State) (o : Origin) (p : Position), Ready s o p →
    let gives := fun c code res s1 => ∃ t, exec c s = .next t ∧ Answered o p code res .empty s1 t
    let discarded := { s with tables := { s.tables with staging := .idle } }
    (∀ x crc r, s.tables.staging = .awaitDecision x crc r → gives (.reject o) 0x42 .done discarded)
    ∧ ((∀ x crc r, s.tables.staging ≠ .awaitDecision x crc r) → gives (.reject o) 0x42 .refusedState s)
    ∧ (∀ x crc, s.tables.staging = .pendingSwitch x crc → gives (.abandon o) 0x43 .done discarded)
    ∧ ((∀ x crc, s.tables.staging ≠ .pendingSwitch x crc) → gives (.abandon o) 0x43 .refusedState s)
    ∧ ∀ x, s.tables.staging = .loading x →
        (∀ c t, (asOrder c).isSome = true → exec c s = .next t → t.tables.staging ≠ .idle)
        ∧ ∀ sect start count items y, Sect.ofCode sect = some y → start.toNat < y.items → 1 ≤ count.toNat →
            count.toNat ≤ y.mostPerLoad →
            items.length = ((List.range count.toNat).map (fun k => y.itemSize ((start.toNat + k) % y.items))).sum →
            ∃ t x1 crc r, exec (.load o sect start count 1 items) s = .next t
              ∧ t.tables.staging = .awaitDecision x1 crc r

/-- Profiles (R145, R147 to R149). LOAD_PROFILE stages a valid slot's set and checks it, or is refused. SAVE_PROFILE with
the slot free takes its snapshot, marks the profile slot WRITING and keeps the long-order slot until the read-back ends:
agreement leaves the slot valid and selected, disagreement leaves it corrupted, with PROFILE_FAULT if it is the selected
one; slot 0 writes the selection alone, always with DONE (the model's reading, log entry 26). An end with no save in
progress changes nothing (the model's choice, log entry 3). -/
def Obligations.ProfilesLoadedAndSaved : Prop :=
  (∀ (s : State) (o : Origin) (p : Position) (slot : U8), Ready s o p →
    let loads := fun res data s1 => ∃ t, exec (.loadProfile o slot) s = .next t ∧ Answered o p 0x47 res data s1 t
    let cleared := clearIn s.orders.faults .checkFailed
    (4 ≤ slot.toNat → loads .refusedArg .empty s)
    ∧ (slot.toNat < 4 → s.tables.staging ≠ .idle → loads .refusedBusy .empty s)
    ∧ (slot.toNat < 4 → s.tables.staging = .idle → s.tables.slots.contents slot.toNat = none →
        loads .refusedArg .empty s)
    ∧ (∀ n x, slot.toNat < 4 → s.tables.staging = .idle → s.tables.slots.contents slot.toNat = some (n, x) →
        loads .done (.checkedProfile x.check x.crc n)
          { s with
            tables := { s.tables with staging := .awaitDecision x x.crc x.check }
            orders :=
              { s.orders with
                faults := if x.check = none then cleared else raiseIn cleared .checkFailed
                reported :=
                  if classSummary cleared = classSummary s.orders.faults then s.orders.reported else none } })
    ∧ (s.orders.slot = none → 4 ≤ slot.toNat →
        ∃ t, exec (.saveProfile o slot) s = .next t ∧ Handed p ⟨o.tag, 0x46, .refusedArg, .empty⟩ s t)
    ∧ ∀ i : Fin 4, s.orders.slot = none → slot.toNat = i.val →
        ∃ t, exec (.saveProfile o slot) s = .next t
          ∧ Reported
            { s with
              orders := { s.orders with slot := some ⟨.saveProfile, o.tag, p.pid⟩ }
              tables :=
                { s.tables with
                  slots := if i = 0 then s.tables.slots else s.tables.slots.set i.val .writing
                  save := some ⟨i, s.tables.active, p.pid, o.tag⟩ } } t)
  ∧ (∀ (u : UserSlots) (i j : Nat) (y : Slot), 1 ≤ i → i ≤ 3 → 1 ≤ j → j ≤ 3 →
      (u.set i y).get j = (if j = i then y else u.get j) ∧ (u.set i .writing).info i = .corrupted)
  ∧ (∀ (n : U16) (x : TableSet), (Slot.written n x (slotCrc n x)).contents = some (n, x))
  ∧ (∀ s b, s.tables.save = none → exec (.saveProfileComplete b) s = .next s)
  ∧ ∀ (s : State) (l : LongOrder) (p : Position) (r : SaveRecord) (agrees : Bool), Waiting s l p →
      s.tables.save = some r →
      let a := r.snapshot
      let ends := fun res data s1 =>
        ∃ t, exec (.saveProfileComplete agrees) s = .next t ∧ Handed p ⟨l.tag, l.name.code, res, data⟩ s1 t
      let after := fun slots selection faults =>
        { s with
          tables := { s.tables with save := none, slots := slots, selection := selection }
          orders := { s.orders with slot := none, faults := faults } }
      (r.slot = 0 → ends .done (.slotNumber 0) (after s.tables.slots 0 s.orders.faults))
      ∧ (r.slot ≠ 0 → agrees = true →
          ends .done (.slotSaved r.slot a.number a.tables.crc)
            (after (s.tables.slots.set r.slot.val (.written a.number a.tables (slotCrc a.number a.tables))) r.slot
              s.orders.faults))
      ∧ (r.slot ≠ 0 → agrees = false →
          ends .dataCheck (.slotNumber r.slot.val)
            (after (s.tables.slots.set r.slot.val .writing) s.tables.selection
              (if s.tables.selection = r.slot then raiseIn s.orders.faults .profileFault else s.orders.faults)))

/-! ### Capture and recorder -/

/-- Triggers (R156, R158 to R160, R177, R178) and the orders ARM, DISARM and TRIGGER (R157, R161). A disabled kind is
ignored; else a trigger is missed while DISARMED or with fewer than 127 writable pages, starts a capture with its
record and a CAPTURING entry at the head of the directory while ARMED, under the next incident number, which advances
by one (after 4,294,967,295 to 2^32: the model's choice, log entry 50; of 48 entries the oldest unprotected one makes
room; an entry whose CLOSE page waits becomes CLOSED), its OPEN page queued at once, and is noted in the capture in
progress, where a higher class takes over the countdown; the three orders answer by the recorder state, and bytes
beyond their names are ignored. That the store goes on after a trigger is noted is the model's reading (log entry 19),
and that a higher class takes over the countdown also with the list full its choice (log entry 64). -/
def Obligations.TriggersAndRecorderOrders : Prop :=
  (∀ (s : State) (kind : TriggerKind),
    let e := s.tbl.triggers.getD kind.code ⟨0, 0, 0, 0⟩
    let t := s.takeTrigger kind
    let c := s.capture
    let n := s.store.nextIncident
    let pre := min e.pre.toNat c.ring.length
    RecorderOnly s t
    ∧ (e.enabled = 0 → t = s)
    ∧ (e.enabled ≠ 0 → c.recorder = .disarmed →
        t = { s with capture := { c with missedDisarmed := min 65535 (c.missedDisarmed + 1) } })
    ∧ (e.enabled ≠ 0 → c.recorder = .armed → s.store.writable < 127 →
        t = { s with
              capture := { c with missedFull := min 65535 (c.missedFull + 1) }
              orders := { s.orders with faults := raiseIn s.orders.faults .storeFull } })
    ∧ (e.enabled ≠ 0 → c.recorder = .armed → 127 ≤ s.store.writable →
        t.store.nextIncident = n + 1
        ∧ (∃ d ∈ t.store.directory, d.incident = n ∧ d.kind = kind ∧ d.cls = e.cls.toNat ∧ d.time = s.time
            ∧ d.index = c.counter ∧ d.pre = pre)
        ∧ (let k := s.tbl.recorder.retention.toNat
          let u := s.store
          let first := c.counter - BitVec.ofNat 32 pre
          let record : CaptureRecord :=
            { incident := n, kind := kind, time := s.time, index := c.counter, cls := e.cls.toNat, pre := pre
              first := first, countdown := e.post.toNat, post := 0, cursor := first, nextPage := 0, lost := 0
              extras := [], extraCount := 0, rearm := decide (s.tbl.recorder.autoRearm ≠ 0), phase := .collecting
              opening := ⟨n, kind, e.cls.toNat, s.time, c.counter, pre, s.tables.active.number, s.tables.active.crc,
                s.control.partState⟩ }
          let begun := fun (roomy : Store) =>
            { s with
              store :=
                { roomy with
                  directory :=
                    { incident := n, state := .capturing, kind := kind, cls := e.cls.toNat, time := s.time
                      index := c.counter, firstPage := none, pageCount := 0, banks := [], pre := pre, close := none
                      dropped := 0, committed := 0, lastPage := none, openDropped := false }
                    :: roomy.directory.map (fun d =>
                      match d.state, u.queue.findSome? (fun q => match q.page.body with
                        | .closing x => if q.page.incident = d.incident then some x else none
                        | _ => none) with
                      | .capturing, some x =>
                        { d with state := .closed, close := some ⟨x.post, x.lost, x.extraCount, x.reason⟩ }
                      | _, _ => d)
                  nextIncident := n + 1 }
              capture := { c with recorder := .capturing, record := some record } }
          let starts := fun (roomy : Store) =>
            let v := State.runStore (begun roomy)
            t = if e.post = 0 then
                State.runStore
                  { v with
                    capture :=
                      { v.capture with
                        record := v.capture.record.map (fun r => { r with phase := .flushing (r.index - 1) .postDone }) } }
              else v
          let out := fun (o : DirEntry) =>
            { u with
              directory := u.directory.filter (fun d => d.incident != o.incident)
              pins := u.pins.filter (fun m => m != o.incident)
              cursor := (match u.cursor with
                | some x => if x.incident = o.incident then none else some x
                | none => none) }
          (u.directory.length < 48 → starts u)
          ∧ (48 ≤ u.directory.length → (∀ d ∈ u.directory, u.isProtected k d = true) → starts u)
          ∧ (∀ newer o older, 48 ≤ u.directory.length → u.directory = newer ++ o :: older →
              u.isProtected k o = false → (∀ d ∈ older, u.isProtected k d = true) → starts (out o))
          ∧ (u.queue.length < 4 → u.op ≠ .idle → ⟨⟨n, 0, .opening record.opening⟩, 0⟩ ∈ t.store.queue))
        ∧ (∀ r, t.capture.record = some r →
            r.incident = n ∧ r.kind = kind ∧ r.time = s.time ∧ r.index = c.counter ∧ r.cls = e.cls.toNat ∧ r.pre = pre
            ∧ r.first = c.counter - BitVec.ofNat 32 pre ∧ r.countdown = e.post.toNat ∧ r.post = 0 ∧ r.lost = 0
            ∧ r.extras = [] ∧ r.extraCount = 0 ∧ r.rearm = decide (s.tbl.recorder.autoRearm ≠ 0)
            ∧ r.opening = ⟨n, kind, e.cls.toNat, s.time, c.counter, pre, s.tables.active.number, s.tables.active.crc,
                s.control.partState⟩
            ∧ t.capture.recorder = .capturing
            ∧ r.phase = (if e.post = 0 then .flushing (c.counter - 1) .postDone else .collecting))
        ∧ (e.post ≠ 0 → t.capture.record.isSome = true))
    ∧ (e.enabled ≠ 0 → c.recorder = .capturing →
        t = State.runStore
            { s with
              capture :=
                { c with
                  record := c.record.map (fun r =>
                    let noted :=
                      { r with
                        extraCount := min 65535 (r.extraCount + 1)
                        extras :=
                          if r.extras.length < 8 then r.extras ++ [⟨kind, e.cls.toNat, s.time, c.counter⟩]
                          else r.extras }
                    if r.phase = .collecting ∧ r.cls < e.cls.toNat then
                      { noted with
                        cls := e.cls.toNat, countdown := e.post.toNat
                        phase := if e.post = 0 then .flushing (c.counter - 1) .postDone else .collecting }
                    else noted) } }))
  ∧ ∀ (s : State) (o : Origin) (p : Position), Ready s o p →
    let gives := fun i code res data s1 => ∃ t, exec i s = .next t ∧ Answered o p code res data s1 t
    let now := s.capture.recorder
    let recorder := fun r => { s with capture := { s.capture with recorder := r } }
    let enabled := (s.tbl.triggers.getD 10 ⟨0, 0, 0, 0⟩).enabled
    let triggered := fun x => gives (.trigger o) 0x52 .done (.triggerOutcome x) (s.takeTrigger .manual)
    (now ≠ .capturing → gives (.arm o) 0x50 .done (.recorderState .armed) (recorder .armed))
    ∧ (now = .capturing → gives (.arm o) 0x50 .refusedState (.recorderState .capturing) s)
    ∧ (now ≠ .capturing → gives (.disarm o) 0x51 .done (.recorderState .disarmed) (recorder .disarmed))
    ∧ (now = .capturing → gives (.disarm o) 0x51 .captureActive (.recorderState .capturing) s)
    ∧ (now = .capturing → gives (.trigger o) 0x52 .busy .empty s)
    ∧ (now ≠ .capturing → enabled = 0 → triggered .ignored)
    ∧ (now = .disarmed → enabled ≠ 0 → triggered .missedDisarmed)
    ∧ (now = .armed → enabled ≠ 0 → s.store.writable < 127 → triggered .missedFull)
    ∧ (now = .armed → enabled ≠ 0 → 127 ≤ s.store.writable → triggered (.started s.store.nextIncident))
    ∧ ∀ extra : Bytes, exec (.arm o) s = .next (s.order o .arm extra) ∧ exec (.disarm o) s = .next (s.order o .disarm extra)
        ∧ exec (.trigger o) s = .next (s.order o .trigger extra)

/-! ### The record store -/

/-- Readout (R180 to R183) while capture and store have nothing else to do. READ_RECORD, and READ_NEXT for the item at
its cursor, are judged case by case; what can be answered only from pages waits for the read of the record's first page,
or, at a cursor with a place, is taken from the page it stands on: the item is returned, the next code followed, or the
read fails there. So it is at the end of each page read. The cursor is set or cleared as R182 and R183 state, and the
slot is held until the reply. An item not yet committed of a record whose CLOSE page is still to be committed, CAPTURING
or CLOSED already, is NOT_YET. The model's readings: orders wait for the scan (log entry 21), a bad flag is refused at
once and clears the cursor (log entries 21 and 42), the corners of a walk (log entry 22), item 0 of a dropped OPEN page
is DATA_CHECK at once (log entry 51), an old cursor stands until the reply (log entry 52), and the cursor's place is the
page last read, or none (log entry 59). -/
def Obligations.RecordsRead : Prop :=
  (∀ (s : State) (o : Origin) (p : Position) (incident : U32) (item : U16) (cont : U8), Ready s o p →
    s.orders.slot = none → s.store.job = none →
    let c := Instr.readRecord o incident item cont
    let n := incident.toNat
    let i := item.toNat
    let keep : Bool := cont == 1
    let asked := fun (code : OrderName) => if code = .readNext then Instr.readNext o else c
    let waits := fun (code : OrderName) store =>
      ∃ t, exec (asked code) s = .next t
        ∧ Reported { s with orders := { s.orders with slot := some ⟨code, o.tag, p.pid⟩ }, store := store } t
    let ends := fun (code : OrderName) res data cursor =>
      ∃ t, exec (asked code) s = .next t
        ∧ Handed p ⟨o.tag, code.code, res, data⟩ { s with store := { s.store with cursor := cursor } } t
    let reading := fun (w : Walk) =>
      { s.store with
        job := some (.walk w), op := if s.store.op = .idle then .read w.place.addr else s.store.op }
    let closing : Nat → Prop := fun m => ∃ q ∈ s.store.queue, q.page.incident = m ∧ ∃ d, q.page.body = .closing d
    let above : DirEntry → Nat → Prop := fun e j =>
      ∃ f, e.state = .closed ∧ e.close = some f ∧ e.pre + f.post - (f.closeLost + e.dropped) + 1 < j
    let judged := fun (code : OrderName) (m j : Nat) (stays : Bool) (place : Option ReadPlace) (e : DirEntry) =>
      let pages := if j = 0 then e.firstPage.isNone && !e.openDropped else decide (e.committed < j)
      (above e j → ends code .refusedArg .empty none)
      ∧ (e.state = .unclosed → e.committed < j → ends code .endOfRecord .empty none)
      ∧ (e.state = .capturing ∨ (e.state = .closed ∧ e.close.isSome = true ∧ closing m ∧ ¬above e j) → pages = true →
          ends code .notYet .empty (if stays then some ⟨m, j, place⟩ else none))
      ∧ (j = 0 → e.openDropped = true → ends code .dataCheck (.readFailed 0 none) none)
    let walks : Nat → Nat → DirEntry → PageAddr → Prop := fun m j e a =>
      e.firstPage = some a ∧ (e.state = .closed → e.close.isSome = true) ∧ ¬above e j
      ∧ (e.state ≠ .closed ∨ closing m → j ≤ e.committed) ∧ (j = 0 → e.openDropped = false)
    (2 ≤ cont.toNat → ends .readRecord .refusedArg .empty none)
    ∧ (cont.toNat < 2 → s.store.scan = .scanning →
        waits .readRecord { s.store with job := some (.scanRead n i keep) }
        ∧ waits .readNext { s.store with job := some .scanNext })
    ∧ (s.store.scan = .done → s.storeStill →
        (cont.toNat < 2 → s.store.entry n = none → ends .readRecord .recordGone .empty none)
        ∧ (∀ e, cont.toNat < 2 → s.store.entry n = some e →
            judged .readRecord n i keep none e
            ∧ ∀ a, walks n i e a → waits .readRecord (reading ⟨n, i, keep, ⟨a, 0⟩⟩))
        ∧ (s.store.cursor = none → ends .readNext .refusedState .empty none)
        ∧ ∀ k, s.store.cursor = some k →
            (s.store.entry k.incident = none → ends .readNext .recordGone .empty none)
            ∧ ∀ e, s.store.entry k.incident = some e →
                judged .readNext k.incident k.item true k.place e
                ∧ ∀ a, walks k.incident k.item e a →
                    (k.place = none → waits .readNext (reading ⟨k.incident, k.item, true, ⟨a, 0⟩⟩))
                    ∧ ∀ pl, k.place = some pl →
                        let b := s.store.read pl.addr
                        let fails := ends .readNext .dataCheck (.readFailed k.item (some pl.addr)) none
                        let goes := fun (next : Option PageAddr) =>
                          (next = none → fails)
                          ∧ ∀ x, next = some x →
                              waits .readNext (reading ⟨k.incident, k.item, true,
                                ⟨x, pl.counted + (if pageKind b = 2 then pageSamples b else 0)⟩⟩)
                        let notVoid := fun bank first =>
                          ((List.range 64).find? (fun q =>
                            first ≤ q && pageClass (s.store.read ⟨bank, q⟩) != .void)).map
                              (fun q => (⟨bank, q⟩ : PageAddr))
                        (pageClass b ≠ .valid ∨ pageIncident b ≠ e.incident → fails)
                        ∧ (pageClass b = .valid → pageIncident b = e.incident →
                            (∀ x, itemOn b pl.counted k.item = some x →
                              ends .readNext .done (.item k.item pl.addr x)
                                (if pageKind b = 3 then none else some ⟨k.incident, k.item + 1, some pl⟩))
                            ∧ (itemOn b pl.counted k.item = none →
                                (pageNext b = 0xFF → e.state = .unclosed → ends .readNext .endOfRecord .empty none)
                                ∧ (pageNext b = 0xFF → e.state = .capturing ∨ (e.state = .closed ∧ closing k.incident) →
                                    ends .readNext .notYet .empty (some k))
                                ∧ (pageNext b = 0xFF → e.state = .closed → ¬closing k.incident → fails)
                                ∧ (pageNext b = 0xFE → fails)
                                ∧ (0x0F < (pageNext b).toNat → (pageNext b).toNat < 0xFD → fails)
                                ∧ (pageNext b = 0xFD → goes (notVoid pl.addr.bank (pl.addr.page + 1)))
                                ∧ ((pageNext b).toNat ≤ 0x0F → goes (notVoid (pageNext b).toNat 0))))))
  ∧ ∀ (s : State) (l : LongOrder) (p : Position) (a : PageAddr) (w : Walk) (commits : Option Nat), Waiting s l p →
      s.store.op = .read a → s.store.job = some (.walk w) → s.store.scan = .done → s.capture.record = none →
      2 ≤ s.store.roomBanks → s.store.erases = [] →
      (match commits with
        | none => s.store.queue = []
        | some i => s.store.queue ≠ [] ∧ i < 16 ∧ s.store.bankIs .writing i = true
            ∧ ∀ j < i, s.store.bankIs .writing j = false) →
      let commit : Option StoreOp := commits.map (fun i => .commit ⟨i, (s.store.bank i).pointer⟩)
      let closing : Prop := ∃ q ∈ s.store.queue, q.page.incident = w.incident ∧ ∃ d, q.page.body = .closing d
      let ends := fun res data cursor =>
        ∃ t, exec .pageReadEnd s = .next t
          ∧ Handed p ⟨l.tag, l.name.code, res, data⟩
            { s with
              orders := { s.orders with slot := none }
              store := { s.store with op := commit.getD .idle, job := none, cursor := cursor } } t
      let b := s.store.read w.place.addr
      let fails := ends .dataCheck (.readFailed w.item (some w.place.addr)) none
      let goes := fun (next : Option PageAddr) =>
        (next = none → fails)
        ∧ ∀ x, next = some x →
            ∃ t, exec .pageReadEnd s = .next t
              ∧ Reported
                { s with
                  store :=
                    { s.store with
                      op := commit.getD (.read x)
                      job := some (.walk { w with
                        place := ⟨x, w.place.counted + (if pageKind b = 2 then pageSamples b else 0)⟩ }) } } t
      let notVoid := fun bank first =>
        ((List.range 64).find? (fun q => first ≤ q && pageClass (s.store.read ⟨bank, q⟩) != .void)).map
          (fun q => (⟨bank, q⟩ : PageAddr))
      (s.store.entry w.incident = none → ends .recordGone .empty none)
      ∧ ∀ e, s.store.entry w.incident = some e →
          (pageClass b ≠ .valid ∨ pageIncident b ≠ e.incident → fails)
          ∧ (pageClass b = .valid → pageIncident b = e.incident →
              (∀ x, itemOn b w.place.counted w.item = some x →
                ends .done (.item w.item w.place.addr x)
                  (if w.keep = true ∧ pageKind b ≠ 3 then some ⟨w.incident, w.item + 1, some w.place⟩ else none))
              ∧ (itemOn b w.place.counted w.item = none →
                  (pageNext b = 0xFF → e.state = .unclosed → ends .endOfRecord .empty none)
                  ∧ (pageNext b = 0xFF → e.state = .capturing ∨ (e.state = .closed ∧ closing) →
                      ends .notYet .empty (if w.keep then some ⟨w.incident, w.item, some w.place⟩ else none))
                  ∧ (pageNext b = 0xFF → e.state = .closed → ¬closing → fails)
                  ∧ (pageNext b = 0xFE → fails)
                  ∧ (0x0F < (pageNext b).toNat → (pageNext b).toNat < 0xFD → fails)
                  ∧ (pageNext b = 0xFD → goes (notVoid w.place.addr.bank (w.place.addr.page + 1)))
                  ∧ ((pageNext b).toNat ≤ 0x0F → goes (notVoid (pageNext b).toNat 0))))

/-- The directory's orders (R180, R184, R185), with nothing else for the store to do. LIST_RECORDS gives the count and up
to 4 entries from the start index; pins join and leave the list, 8 at most; CLEAR_STORE in MAINTENANCE removes every
unprotected entry and queues the erases of the FILLED and WRITING banks without a protected page, and is answered at once
when it queues none: each such bank becomes ERASING and its erase waits behind those chosen before it, the removed entries
lose their pins, and a cursor on one of them is cleared. That a bank whose page is being committed counts as holding a
page of its record, and so is not chosen when the record is protected, is the model's reading (log entry 20), where R178
and R185 judge by the bank set alone. While the scan runs the pins are answered BUSY and the long orders
wait, to be judged at its end (the model's reading, log entry 21). -/
def Obligations.DirectoryOrders : Prop :=
  ∀ (s : State) (o : Origin) (p : Position) (start : U8) (incident : U32), Ready s o p →
    let n := incident.toNat
    let pins := s.store.pins
    let gives := fun i code res data s1 => ∃ t, exec i s = .next t ∧ Answered o p code res data s1 t
    let ends := fun i (code : OrderName) res data store =>
      ∃ t, exec i s = .next t ∧ Handed p ⟨o.tag, code.code, res, data⟩ { s with store := store } t
    let waits := fun i code store =>
      ∃ t, exec i s = .next t
        ∧ Reported { s with orders := { s.orders with slot := some ⟨code, o.tag, p.pid⟩ }, store := store } t
    let pinned := fun l => { s with store := { s.store with pins := l } }
    (s.store.scan = .scanning →
      gives (.pinRecord o incident) 0x63 .busy .empty s ∧ gives (.unpinRecord o incident) 0x64 .busy .empty s)
    ∧ (s.store.scan = .done → s.storeStill →
        ((∀ e ∈ s.store.directory, e.incident ≠ n) →
          gives (.pinRecord o incident) 0x63 .recordGone (.pins false pins.length) s
          ∧ gives (.unpinRecord o incident) 0x64 .recordGone (.pins false pins.length) s)
        ∧ ((∃ e ∈ s.store.directory, e.incident = n) →
            (n ∈ pins → gives (.pinRecord o incident) 0x63 .done (.pins true pins.length) s)
            ∧ (n ∉ pins → 8 ≤ pins.length → gives (.pinRecord o incident) 0x63 .refusedArg (.pins false pins.length) s)
            ∧ (n ∉ pins → pins.length < 8 →
                gives (.pinRecord o incident) 0x63 .done (.pins true (pins.length + 1)) (pinned (pins ++ [n])))
            ∧ (n ∉ pins → gives (.unpinRecord o incident) 0x64 .done (.pins false pins.length) s)
            ∧ (n ∈ pins →
                let left := pins.filter (fun m => m != n)
                gives (.unpinRecord o incident) 0x64 .done (.pins false left.length) (pinned left))))
    ∧ (s.orders.slot = none → s.store.job = none → s.store.scan = .scanning →
        waits (.listRecords o start) .listRecords { s.store with job := some (.scanList start.toNat) }
        ∧ waits (.clearStore o) .clearStore { s.store with job := some .scanClear })
    ∧ (s.orders.slot = none → s.store.job = none → s.store.scan = .done →
        ends (.listRecords o start) .listRecords .done
          (.records s.store.directory.length
            (((s.store.directory.drop start.toNat).take 4).map (fun e =>
              { incident := e.incident, state := e.state, kind := e.kind, cls := e.cls, time := e.time, index := e.index
                firstPage := e.firstPage, pageCount := e.pageCount, banks := e.banks, pre := e.pre
                post := e.close.map (fun f => f.post)
                lost := (match e.state with
                  | .capturing => some e.dropped
                  | .closed => e.close.map (fun f => f.closeLost + e.dropped)
                  | .unclosed => none)
                extraCount := e.close.map (fun f => f.extraCount), pinned := pins.contains e.incident
                reason := e.close.map (fun f => f.reason) })))
          s.store)
    ∧ (s.orders.slot = none → s.store.job = none → s.store.scan = .done → s.storeStill →
        let k := s.tbl.recorder.retention.toNat
        let gone := s.store.directory.filter (fun e => !s.store.isProtected k e)
        let u := s.store.removeEntries (fun e => !s.store.isProtected k e)
        let chosen := (List.range 16).filter (fun i =>
          (s.store.bankIs .filled i || s.store.bankIs .writing i) && !u.bankProtected k i)
        let removed := gone.map DirEntry.incident
        u = { s.store with
              directory := s.store.directory.filter (fun e => s.store.isProtected k e)
              pins := s.store.pins.filter (fun m => !removed.contains m)
              cursor := (match s.store.cursor with
                | some x => if removed.contains x.incident then none else some x
                | none => none) }
        ∧ (s.control.partState ≠ .maintenance → ends (.clearStore o) .clearStore .refusedState .empty s.store)
        ∧ (s.control.partState = .maintenance → chosen = [] →
            ends (.clearStore o) .clearStore .done (.cleared gone.length 0 0) u)
        ∧ ∀ i rest, s.control.partState = .maintenance → chosen = i :: rest →
            waits (.clearStore o) .clearStore
              { u with
                banks := (List.range s.store.banks.length).map (fun j =>
                  let b := s.store.bank j
                  if chosen.contains j then ⟨.erasing, b.fillSeq, b.mismatch, 0⟩ else b)
                erases := s.store.erases ++ chosen
                job := some (.clearing gone.length chosen 0 0)
                op := if s.store.op = .idle then .erase i else s.store.op })

/-- The ends of commits (R173, R174), of a store whose memory is canonical. A copy that agrees is read back as built, the
record's last page is linked to it with FOLLOWING or its bank, or left with the broken link it reads, and the pointer,
the mismatch run and the directory entry follow; a mismatch leaves the copy as it reads, retires the bank at a run of 2
or a void header that does not read back, keeps the page queued, and drops it at its third attempt. No other page and no
other entry changes. Then the recorder goes on. A command without a commit in progress changes nothing (ErasesEnd; log
entry 3). RETIRED standing over FILLED is the model's reading (log entry 20), and the broken link an operand of the command
(log entry 25). -/
def Obligations.CommitsEnd : Prop :=
  (∀ (t : Store) (q : QueuedPage) (rest : List QueuedPage) (a : PageAddr) (next : Option U8) (left : Bytes),
    pagesWf t.pages = true → t.banks.length = 16 → a.bank < 16 → left.length = 590 →
    let u := t.commitAgrees q rest a next
    let v := t.commitMismatch q rest a left
    let n := q.page.incident
    let bank := t.bank a.bank
    let run := bank.mismatch + 1
    let retires : Prop := 2 ≤ run ∨ (left.take 9).all (fun b => b == 0) = false
    let linked := fun (prev : PageAddr) => (∀ d, q.page.body ≠ .opening d) ∧ (t.entry n).bind (fun e => e.lastPage) = some prev
    (u.read a = q.page.bytes ∧ u.queue = rest ∧ u.op = .idle
      ∧ (∀ prev, linked prev → prev.key ≠ a.key → pageClass (t.read prev) = .valid →
          let written : U8 := if prev.bank = a.bank then 0xFD else BitVec.ofNat 8 a.bank
          (next = none → u.read prev = (t.read prev).set 9 written)
          ∧ ∀ b, next = some b →
              (0x0F < b.toNat ∧ b.toNat < 0xFD → u.read prev = (t.read prev).set 9 b)
              ∧ (b.toNat ≤ 0x0F ∨ 0xFD ≤ b.toNat → u.read prev = (t.read prev).set 9 written))
      ∧ (∀ b : PageAddr, b.key ≠ a.key → (∀ prev, linked prev → b.key ≠ prev.key) → u.read b = t.read b)
      ∧ u.bank a.bank =
          (if 63 ≤ bank.pointer then ⟨.filled, bank.fillSeq, 0, 0⟩
          else ⟨bank.state, bank.fillSeq, 0, bank.pointer + 1⟩)
      ∧ (∀ i, i ≠ a.bank → u.bank i = t.bank i) ∧ u.retireMarks = t.retireMarks
      ∧ (∀ m, m ≠ n → u.entry m = t.entry m)
      ∧ u.directory.map DirEntry.incident = t.directory.map DirEntry.incident
      ∧ u.pins = t.pins ∧ u.cursor = t.cursor ∧ u.job = t.job ∧ u.erases = t.erases ∧ u.nextIncident = t.nextIncident
      ∧ ∀ e, t.entry n = some e → ∃ f, u.entry n = some f ∧ f.pageCount = e.pageCount + 1
          ∧ f.firstPage = (if e.firstPage.isSome then e.firstPage else some a) ∧ f.lastPage = some a
          ∧ (∀ i, i ∈ f.banks ↔ i ∈ e.banks ∨ i = a.bank) ∧ f.dropped = e.dropped
          ∧ f.openDropped = e.openDropped ∧ f.kind = e.kind ∧ f.cls = e.cls ∧ f.time = e.time ∧ f.index = e.index
          ∧ f.pre = e.pre ∧ f.committed = e.committed + q.page.body.sampleCount
          ∧ (∀ d, q.page.body = .closing d →
              f.state = .closed ∧ f.close = some ⟨d.post, d.lost, d.extraCount, d.reason⟩)
          ∧ ((∀ d, q.page.body ≠ .closing d) → f.state = e.state ∧ f.close = e.close))
    ∧ (v.read a = left ∧ v.op = .idle ∧ (∀ b : PageAddr, b.key ≠ a.key → v.read b = t.read b)
      ∧ (∀ i, i ≠ a.bank → v.bank i = t.bank i)
      ∧ (∀ m, m ≠ n → v.entry m = t.entry m)
      ∧ v.directory.map DirEntry.incident = t.directory.map DirEntry.incident
      ∧ v.pins = t.pins ∧ v.cursor = t.cursor ∧ v.job = t.job ∧ v.erases = t.erases ∧ v.nextIncident = t.nextIncident
      ∧ (retires → (v.bank a.bank).state = .retired ∧ a.bank ∈ v.retireMarks)
      ∧ (¬retires →
          v.bank a.bank =
              (if 63 ≤ bank.pointer then ⟨.filled, bank.fillSeq, run, 0⟩
              else ⟨bank.state, bank.fillSeq, run, bank.pointer + 1⟩)
          ∧ v.retireMarks = t.retireMarks)
      ∧ (q.attempts + 1 < 3 →
          v.queue = { q with attempts := q.attempts + 1 } :: rest ∧ v.directory = t.directory)
      ∧ (3 ≤ q.attempts + 1 →
          v.queue = rest
          ∧ ∀ e, t.entry n = some e →
              v.entry n
                = some
                  (match q.page.body with
                    | .opening _ => { e with openDropped := true }
                    | .samples l => { e with dropped := e.dropped + l.length }
                    | .closing _ => { e with state := .unclosed, close := none }))))
  ∧ ∀ (s : State) (q : QueuedPage) (rest : List QueuedPage) (a : PageAddr), s.phase = .running → s.noHeld →
    s.store.op = .commit a → s.store.queue = q :: rest →
    (∀ next, ∃ t, exec (.commitEnd (.agrees next)) s = .next t
      ∧ Reported (State.runStore { s with store := s.store.commitAgrees q rest a next }) t)
    ∧ ∀ left,
      let retires : Bool := 2 ≤ (s.store.bank a.bank).mismatch + 1 || !(left.take 9).all (fun b => b == 0)
      let faults := if retires then raiseIn s.orders.faults .bankRetired else s.orders.faults
      ∃ t, exec (.commitEnd (.mismatch left)) s = .next t
        ∧ Reported
          (State.runStore
            { s with
              store := s.store.commitMismatch q rest a left
              orders :=
                { s.orders with faults := if 3 ≤ q.attempts + 1 then raiseIn faults .pageDropped else faults } }) t

/-- The end of an erase (R176, R185): the bank's pages read erased but for those left otherwise, no other page changes,
and the bank is ERASED with run 0, or RETIRED with its mark and BANK_RETIRED when a page is left (that this is what the
erase's check finds is the model's reading, log entry 33). A CLEAR_STORE that queued it counts one bank more erased, and of
these one more failed when it failed, and is answered with its counts at its last erase; one that did not queue it is left
as it was. Then the recorder goes on. Without its operation in progress an end changes nothing (the model's choice, log
entry 3). -/
def Obligations.ErasesEnd : Prop :=
  (∀ (t : Store) (i : Nat) (left : List (Nat × Bytes)), pagesWf t.pages = true → t.banks.length = 16 → i < 16 →
    (∀ x ∈ left, x.1 < 64 ∧ x.2.length = 590) → left.Pairwise (fun x y => x.1 ≠ y.1) →
    let u := (t.eraseEnds i left).1
    let failed := (t.eraseEnds i left).2
    (∀ n, n / 64 ≠ i → lookupPage u.pages n = lookupPage t.pages n)
    ∧ (∀ x ∈ left, lookupPage u.pages (64 * i + x.1) = x.2)
    ∧ (∀ k < 64, (∀ x ∈ left, x.1 ≠ k) → lookupPage u.pages (64 * i + k) = erasedPage)
    ∧ (failed = true ↔ ∃ x ∈ left, isErased x.2 = false)
    ∧ u.op = .idle ∧ u.erases = t.erases.filter (fun j => j != i) ∧ u.directory = t.directory
    ∧ (∀ j, j ≠ i → u.bank j = t.bank j)
    ∧ (failed = false → (u.bank i).state = .erased ∧ (u.bank i).mismatch = 0 ∧ u.retireMarks = t.retireMarks)
    ∧ (failed = true → (u.bank i).state = .retired ∧ i ∈ u.retireMarks))
  ∧ (∀ (s : State) (i : Nat) (left : List (Nat × Bytes)), s.phase = .running → s.noHeld → s.store.op = .erase i →
    let u := (s.store.eraseEnds i left).1
    let failed := (s.store.eraseEnds i left).2
    let faults := if failed then raiseIn s.orders.faults .bankRetired else s.orders.faults
    ((∀ r bs e f, s.store.job = some (.clearing r bs e f) → bs ≠ [] ∧ bs.contains i = false) →
      ∃ t, exec (.eraseEnd left) s = .next t
        ∧ Reported (State.runStore { s with store := u, orders := { s.orders with faults := faults } }) t)
    ∧ ∀ r bs e f l p, s.store.job = some (.clearing r bs e f) → bs.contains i = true →
        let e1 := e + 1
        let f1 := if failed then f + 1 else f
        (bs.filter (fun j => j != i) ≠ [] →
          ∃ t, exec (.eraseEnd left) s = .next t
            ∧ Reported
              (State.runStore
                { s with
                  store := { u with job := some (.clearing r (bs.filter (fun j => j != i)) e1 f1) }
                  orders := { s.orders with faults := faults } }) t)
        ∧ (bs.filter (fun j => j != i) = [] → Waiting s l p →
            let s1 :=
              { s with store := { u with job := none }, orders := { s.orders with faults := faults, slot := none } }
            s1.storeStill →
            ∃ t, exec (.eraseEnd left) s = .next t
              ∧ Handed p ⟨l.tag, l.name.code, .done, .cleared r e1 f1⟩ s1 t))
  ∧ ∀ (s : State), s.phase = .running → s.noHeld →
      ((∀ a, s.store.op ≠ .commit a) → ∀ r, ∃ t, exec (.commitEnd r) s = .next t ∧ Reported s t)
      ∧ ((∀ i, s.store.op ≠ .erase i) → ∀ left, ∃ t, exec (.eraseEnd left) s = .next t ∧ Reported s t)
      ∧ ((∀ a, s.store.op ≠ .read a) → ∃ t, exec .pageReadEnd s = .next t ∧ Reported s t)

/-! ### Order handling and faults -/

/-- Orders that are not taken at once (R190, R192, R198). A long order finds the slot occupied: REFUSED_BUSY, the occupant
undisturbed. An order of a position that holds its orders is held, or with one held already discarded and counted. RESTART
is answered DONE; every order that any position holds is discarded with it, and from then on orders are discarded as they
come, unanswered and uncounted (uncounted: the model's reading, log entry 9). -/
def Obligations.OrdersHeldBusyOrDiscarded : Prop :=
  (∀ (s : State) (o : Origin) (p : Position) (c : Instr) (n : OrderName) (args : Bytes), asOrder c = some (o, n, args) →
    Ready s o p →
    (n.isLong = true → s.orders.slot.isSome = true →
      ∃ t, exec c s = .next t ∧ Handed p ⟨o.tag, n.code, .refusedBusy, .empty⟩ s t)
    ∧ (n = .restart →
        ∃ t, exec c s = .next t
          ∧ Answered o p 0x72 .done .empty { s with orders := { s.orders with restarting := true } } t))
  ∧ (∀ (s : State) (o : Origin) (p : Position), s.phase = .running → s.orders.restarting = false →
    s.entryPosition o.entry.val = some p → s.position p.pid = some p → p.queued = false →
    (p.fresh = false ∨ ∀ q ∈ s.orders.positions, q.departing = false) →
    ∃ t, exec (.restart o) s = .next t
      ∧ ReportOnly
          { s with
            orders :=
              { s.orders with
                restarting := true, positions := s.orders.positions.map (fun q => { q with held := none }) } } t
      ∧ t.replied p.key.port p.pid ⟨o.tag, 0x72, .done, .empty⟩
      ∧ ∀ q ∈ t.orders.positions, q.held = none
          ∧ ∃ x ∈ s.orders.positions, x.pid = q.pid ∧ x.entry = q.entry ∧ x.discards = q.discards)
  ∧ ∀ (s : State) (o : Origin) (p : Position) (c : Instr) (n : OrderName) (args : Bytes), asOrder c = some (o, n, args) →
    s.phase = .running → s.orders.reported = some s.statusKey → s.settleStep = none →
    (s.orders.restarting = true → exec c s = .next s)
    ∧ (s.orders.restarting = false → s.entryPosition o.entry.val = some p → (∀ q ∈ s.orders.positions, q.pid = p.pid → q = p) →
        (p.queued = true ∨ (p.fresh = true ∧ ∃ q ∈ s.orders.positions, q.departing = true)) →
        let changed := fun (f : Position → Position) =>
          exec c s
            = .next
              { s with
                orders :=
                  { s.orders with positions := s.orders.positions.map (fun q => if q.pid = p.pid then f q else q) } }
        (p.held = none → changed (fun q => { q with held := some ⟨o.tag, n.code, args⟩ }))
        ∧ (p.held.isSome = true → changed (fun q => { q with discards := min 65535 (q.discards + 1) })))

/-- The fault register (R195, R196). Raising a flag sets it and no other, clearing one clears it and no other; a class
summary bit is set exactly while a flag of its class is; a lamp conducts exactly while its class's bit is set, but for a
part without supply. CLEAR_FAULTS is refused with bit 6 or 7; else every flag of a named class whose condition does not
hold is cleared and every other flag stays, and the reply carries the flags. -/
def Obligations.FaultsKeptAndCleared : Prop :=
  (∀ (r : BitVec 17) (f g : Flag) (c : FaultClass) (s : State),
    flagIn (raiseIn r f) g = (decide (g = f) || flagIn r g)
    ∧ flagIn (clearIn r f) g = (!decide (g = f) && flagIn r g)
    ∧ ((classSummary r).getLsbD c.bit = true ↔ ∃ h : Flag, h.cls = c ∧ flagIn r h = true)
    ∧ (s.phase ≠ .off → (s.lamp c = true ↔ ∃ h : Flag, h.cls = c ∧ s.flag h = true))
    ∧ (s.phase = .off → s.lamp c = false))
  ∧ ∀ (s : State) (o : Origin) (p : Position) (classes : U8), Ready s o p →
    let stale := fun (l : List Role) => ∃ x ∈ s.sources, x.role ∈ l ∧ x.freshness = .stale
    let condition : Flag → Prop
      | .demandLost => ∃ d, s.control.timer = .repeating d
      | .sourceStale => stale [.demand, .speed, .pressure]
      | .checkFailed => ∃ x crc f, s.tables.staging = .awaitDecision x crc (some f)
      | .profileFault => s.tables.slots.contents s.tables.selection.val = none ∨
          ∃ n x, s.tables.selection ≠ 0 ∧ s.tables.slots.contents s.tables.selection.val = some (n, x) ∧ x.check ≠ none
      | .lockDetected => ∃ a, (s.slide.axles.get a).state = .locked
      | .ventExpired => ∃ k, (s.builder.trucks.get k).action = .ventExpired
      | .adhesionLow => s.slide.aEst = s.tbl.adhesion.aMin.toNat
      | .inverterStale => stale [.inverterA, .inverterB]
      | .inverterFault => ∃ a, s.tbl.present a = true ∧ (s.capability.inverters.get a).fault = true
          ∧ s.roleFreshness (inverterRole a.inverter) = .fresh
      | .airResponse => ∃ k, (s.builder.supervision.get k).state = .late
      | .thermalDerate => s.capability.thermal ≠ .normal
      | .thermalTrip => s.capability.thermal = .trip
      | .storeFull => s.store.writable < 127
      | .portErrors => False
      | .queueDrop => False
      | .pageDropped => False
      | .bankRetired => False
    (classes.getLsbD 6 = true ∨ classes.getLsbD 7 = true →
      ∃ t, exec (.clearFaults o classes) s = .next t ∧ Answered o p 0x71 .refusedArg .empty s t)
    ∧ (classes.getLsbD 6 = false → classes.getLsbD 7 = false →
        ∃ t r, exec (.clearFaults o classes) s = .next t
          ∧ Answered o p 0x71 .done (.flags r) { s with orders := { s.orders with faults := r } } t
          ∧ ∀ f, flagIn r f = true ↔ flagIn s.orders.faults f = true ∧ (classes.getLsbD f.cls.bit = false ∨ condition f))
end

