-- ==== Sys2Proof/Laws/State.lean ====
section
/-!
SUPPORT. Field lemmas of the state's updates, by rfl: what each leaves and what it writes. Later proofs need not
unfold a record update. First the reads of the per-axle, per-truck and per-port values.
-/

namespace Sys2Proof

@[simp] theorem PerAxle.get_ofFn {α : Type} (f : Axle → α) (a : Axle) : (PerAxle.ofFn f).get a = f a := by
  cases a <;> rfl
@[simp] theorem PerAxle.get_const {α : Type} (x : α) (a : Axle) : (PerAxle.const x).get a = x := by
  cases a <;> rfl
theorem PerAxle.get_set {α : Type} (v : PerAxle α) (a b : Axle) (x : α) :
    (v.set a x).get b = if a = b then x else v.get b := by
  cases a <;> cases b <;> rfl
@[simp] theorem PerAxle.get_set_self {α : Type} (v : PerAxle α) (a : Axle) (x : α) : (v.set a x).get a = x := by
  simp [PerAxle.get_set]
theorem PerAxle.get_set_other {α : Type} (v : PerAxle α) {a b : Axle} (x : α) (h : a ≠ b) :
    (v.set a x).get b = v.get b := by
  simp [PerAxle.get_set, h]
theorem PerAxle.ext_get {α : Type} {v w : PerAxle α} (h : ∀ a, v.get a = w.get a) : v = w := by
  have h1 := h .e1; have h2 := h .e2; have h3 := h .e3
  have h4 := h .e4; have h5 := h .e5; have h6 := h .e6
  cases v; cases w; simp_all [PerAxle.get]
@[simp] theorem PerTruck.get_ofFn {α : Type} (f : Truck → α) (k : Truck) : (PerTruck.ofFn f).get k = f k := by
  cases k <;> rfl
theorem PerTruck.get_set {α : Type} (v : PerTruck α) (j k : Truck) (x : α) :
    (v.set j x).get k = if j = k then x else v.get k := by
  cases j <;> cases k <;> rfl
@[simp] theorem PerTruck.get_set_self {α : Type} (v : PerTruck α) (k : Truck) (x : α) : (v.set k x).get k = x := by
  simp [PerTruck.get_set]
theorem PerPort.get_set {α : Type} (v : PerPort α) (p q : Port) (x : α) :
    (v.set p x).get q = if p = q then x else v.get q := by
  cases p <;> cases q <;> rfl
@[simp] theorem PerPort.get_set_self {α : Type} (v : PerPort α) (p : Port) (x : α) : (v.set p x).get p = x := by
  simp [PerPort.get_set]
@[simp] theorem PerPort.set_get {α : Type} (v : PerPort α) (p : Port) : v.set p (v.get p) = v := by
  cases p <;> rfl

end Sys2Proof

namespace Sys2Proof.Machine


/-! `State.withPort` -/

@[simp] theorem State.withPort_pending (s : State) (p : Port) (q : PortState) :
    (s.withPort p q).pending = s.pending := rfl
@[simp] theorem State.withPort_phase (s : State) (p : Port) (q : PortState) : (s.withPort p q).phase = s.phase := rfl
@[simp] theorem State.withPort_time (s : State) (p : Port) (q : PortState) : (s.withPort p q).time = s.time := rfl
@[simp] theorem State.withPort_sources (s : State) (p : Port) (q : PortState) :
    (s.withPort p q).sources = s.sources := rfl
@[simp] theorem State.withPort_control (s : State) (p : Port) (q : PortState) :
    (s.withPort p q).control = s.control := rfl
@[simp] theorem State.withPort_capability (s : State) (p : Port) (q : PortState) :
    (s.withPort p q).capability = s.capability := rfl
@[simp] theorem State.withPort_blender (s : State) (p : Port) (q : PortState) :
    (s.withPort p q).blender = s.blender := rfl
@[simp] theorem State.withPort_slide (s : State) (p : Port) (q : PortState) : (s.withPort p q).slide = s.slide := rfl
@[simp] theorem State.withPort_builder (s : State) (p : Port) (q : PortState) :
    (s.withPort p q).builder = s.builder := rfl
@[simp] theorem State.withPort_tables (s : State) (p : Port) (q : PortState) :
    (s.withPort p q).tables = s.tables := rfl
@[simp] theorem State.withPort_capture (s : State) (p : Port) (q : PortState) :
    (s.withPort p q).capture = s.capture := rfl
@[simp] theorem State.withPort_store (s : State) (p : Port) (q : PortState) : (s.withPort p q).store = s.store := rfl
@[simp] theorem State.withPort_orders (s : State) (p : Port) (q : PortState) :
    (s.withPort p q).orders = s.orders := rfl
@[simp] theorem State.withPort_ports (s : State) (p : Port) (q : PortState) :
    (s.withPort p q).ports = s.ports.set p q := rfl

/-! `State.setFlag` -/

@[simp] theorem State.setFlag_pending (s : State) (f : Flag) : (s.setFlag f).pending = s.pending := rfl
@[simp] theorem State.setFlag_phase (s : State) (f : Flag) : (s.setFlag f).phase = s.phase := rfl
@[simp] theorem State.setFlag_time (s : State) (f : Flag) : (s.setFlag f).time = s.time := rfl
@[simp] theorem State.setFlag_ports (s : State) (f : Flag) : (s.setFlag f).ports = s.ports := rfl
@[simp] theorem State.setFlag_sources (s : State) (f : Flag) : (s.setFlag f).sources = s.sources := rfl
@[simp] theorem State.setFlag_control (s : State) (f : Flag) : (s.setFlag f).control = s.control := rfl
@[simp] theorem State.setFlag_capability (s : State) (f : Flag) : (s.setFlag f).capability = s.capability := rfl
@[simp] theorem State.setFlag_blender (s : State) (f : Flag) : (s.setFlag f).blender = s.blender := rfl
@[simp] theorem State.setFlag_slide (s : State) (f : Flag) : (s.setFlag f).slide = s.slide := rfl
@[simp] theorem State.setFlag_builder (s : State) (f : Flag) : (s.setFlag f).builder = s.builder := rfl
@[simp] theorem State.setFlag_tables (s : State) (f : Flag) : (s.setFlag f).tables = s.tables := rfl
@[simp] theorem State.setFlag_capture (s : State) (f : Flag) : (s.setFlag f).capture = s.capture := rfl
@[simp] theorem State.setFlag_store (s : State) (f : Flag) : (s.setFlag f).store = s.store := rfl
@[simp] theorem State.setFlag_slot (s : State) (f : Flag) : (s.setFlag f).orders.slot = s.orders.slot := rfl
@[simp] theorem State.setFlag_positions (s : State) (f : Flag) :
    (s.setFlag f).orders.positions = s.orders.positions := rfl
@[simp] theorem State.setFlag_faults (s : State) (f : Flag) :
    (s.setFlag f).orders.faults = raiseIn s.orders.faults f := rfl
@[simp] theorem State.setFlag_statusDeadline (s : State) (f : Flag) :
    (s.setFlag f).orders.statusDeadline = s.orders.statusDeadline := rfl
@[simp] theorem State.setFlag_restarts (s : State) (f : Flag) :
    (s.setFlag f).orders.restarts = s.orders.restarts := rfl
@[simp] theorem State.setFlag_restarting (s : State) (f : Flag) :
    (s.setFlag f).orders.restarting = s.orders.restarting := rfl
@[simp] theorem State.setFlag_nextPid (s : State) (f : Flag) : (s.setFlag f).orders.nextPid = s.orders.nextPid := rfl
@[simp] theorem State.setFlag_reported (s : State) (f : Flag) :
    (s.setFlag f).orders.reported = s.orders.reported := rfl

/-! `State.setFlagIf` -/

@[simp] theorem State.setFlagIf_pending (s : State) (c : Bool) (f : Flag) :
    (s.setFlagIf c f).pending = s.pending := by cases c <;> rfl
@[simp] theorem State.setFlagIf_phase (s : State) (c : Bool) (f : Flag) :
    (s.setFlagIf c f).phase = s.phase := by cases c <;> rfl
@[simp] theorem State.setFlagIf_time (s : State) (c : Bool) (f : Flag) :
    (s.setFlagIf c f).time = s.time := by cases c <;> rfl
@[simp] theorem State.setFlagIf_ports (s : State) (c : Bool) (f : Flag) :
    (s.setFlagIf c f).ports = s.ports := by cases c <;> rfl
@[simp] theorem State.setFlagIf_sources (s : State) (c : Bool) (f : Flag) :
    (s.setFlagIf c f).sources = s.sources := by cases c <;> rfl
@[simp] theorem State.setFlagIf_control (s : State) (c : Bool) (f : Flag) :
    (s.setFlagIf c f).control = s.control := by cases c <;> rfl
@[simp] theorem State.setFlagIf_capability (s : State) (c : Bool) (f : Flag) :
    (s.setFlagIf c f).capability = s.capability := by cases c <;> rfl
@[simp] theorem State.setFlagIf_blender (s : State) (c : Bool) (f : Flag) :
    (s.setFlagIf c f).blender = s.blender := by cases c <;> rfl
@[simp] theorem State.setFlagIf_slide (s : State) (c : Bool) (f : Flag) :
    (s.setFlagIf c f).slide = s.slide := by cases c <;> rfl
@[simp] theorem State.setFlagIf_builder (s : State) (c : Bool) (f : Flag) :
    (s.setFlagIf c f).builder = s.builder := by cases c <;> rfl
@[simp] theorem State.setFlagIf_tables (s : State) (c : Bool) (f : Flag) :
    (s.setFlagIf c f).tables = s.tables := by cases c <;> rfl
@[simp] theorem State.setFlagIf_capture (s : State) (c : Bool) (f : Flag) :
    (s.setFlagIf c f).capture = s.capture := by cases c <;> rfl
@[simp] theorem State.setFlagIf_store (s : State) (c : Bool) (f : Flag) :
    (s.setFlagIf c f).store = s.store := by cases c <;> rfl
@[simp] theorem State.setFlagIf_slot (s : State) (c : Bool) (f : Flag) :
    (s.setFlagIf c f).orders.slot = s.orders.slot := by cases c <;> rfl
@[simp] theorem State.setFlagIf_positions (s : State) (c : Bool) (f : Flag) :
    (s.setFlagIf c f).orders.positions = s.orders.positions := by cases c <;> rfl
@[simp] theorem State.setFlagIf_faults (s : State) (c : Bool) (f : Flag) :
    (s.setFlagIf c f).orders.faults = if c then raiseIn s.orders.faults f else s.orders.faults := by cases c <;> rfl
@[simp] theorem State.setFlagIf_statusDeadline (s : State) (c : Bool) (f : Flag) :
    (s.setFlagIf c f).orders.statusDeadline = s.orders.statusDeadline := by cases c <;> rfl
@[simp] theorem State.setFlagIf_restarts (s : State) (c : Bool) (f : Flag) :
    (s.setFlagIf c f).orders.restarts = s.orders.restarts := by cases c <;> rfl
@[simp] theorem State.setFlagIf_restarting (s : State) (c : Bool) (f : Flag) :
    (s.setFlagIf c f).orders.restarting = s.orders.restarting := by cases c <;> rfl
@[simp] theorem State.setFlagIf_nextPid (s : State) (c : Bool) (f : Flag) :
    (s.setFlagIf c f).orders.nextPid = s.orders.nextPid := by cases c <;> rfl
@[simp] theorem State.setFlagIf_reported (s : State) (c : Bool) (f : Flag) :
    (s.setFlagIf c f).orders.reported = s.orders.reported := by cases c <;> rfl

/-! `State.dropFlag` -/

@[simp] theorem State.dropFlag_pending (s : State) (f : Flag) : (s.dropFlag f).pending = s.pending := rfl
@[simp] theorem State.dropFlag_phase (s : State) (f : Flag) : (s.dropFlag f).phase = s.phase := rfl
@[simp] theorem State.dropFlag_time (s : State) (f : Flag) : (s.dropFlag f).time = s.time := rfl
@[simp] theorem State.dropFlag_ports (s : State) (f : Flag) : (s.dropFlag f).ports = s.ports := rfl
@[simp] theorem State.dropFlag_sources (s : State) (f : Flag) : (s.dropFlag f).sources = s.sources := rfl
@[simp] theorem State.dropFlag_control (s : State) (f : Flag) : (s.dropFlag f).control = s.control := rfl
@[simp] theorem State.dropFlag_capability (s : State) (f : Flag) : (s.dropFlag f).capability = s.capability := rfl
@[simp] theorem State.dropFlag_blender (s : State) (f : Flag) : (s.dropFlag f).blender = s.blender := rfl
@[simp] theorem State.dropFlag_slide (s : State) (f : Flag) : (s.dropFlag f).slide = s.slide := rfl
@[simp] theorem State.dropFlag_builder (s : State) (f : Flag) : (s.dropFlag f).builder = s.builder := rfl
@[simp] theorem State.dropFlag_tables (s : State) (f : Flag) : (s.dropFlag f).tables = s.tables := rfl
@[simp] theorem State.dropFlag_capture (s : State) (f : Flag) : (s.dropFlag f).capture = s.capture := rfl
@[simp] theorem State.dropFlag_store (s : State) (f : Flag) : (s.dropFlag f).store = s.store := rfl
@[simp] theorem State.dropFlag_slot (s : State) (f : Flag) : (s.dropFlag f).orders.slot = s.orders.slot := rfl
@[simp] theorem State.dropFlag_positions (s : State) (f : Flag) :
    (s.dropFlag f).orders.positions = s.orders.positions := rfl
@[simp] theorem State.dropFlag_faults (s : State) (f : Flag) :
    (s.dropFlag f).orders.faults = clearIn s.orders.faults f := rfl
@[simp] theorem State.dropFlag_statusDeadline (s : State) (f : Flag) :
    (s.dropFlag f).orders.statusDeadline = s.orders.statusDeadline := rfl
@[simp] theorem State.dropFlag_restarts (s : State) (f : Flag) :
    (s.dropFlag f).orders.restarts = s.orders.restarts := rfl
@[simp] theorem State.dropFlag_restarting (s : State) (f : Flag) :
    (s.dropFlag f).orders.restarting = s.orders.restarting := rfl
@[simp] theorem State.dropFlag_nextPid (s : State) (f : Flag) :
    (s.dropFlag f).orders.nextPid = s.orders.nextPid := rfl
@[simp] theorem State.dropFlag_reported (s : State) (f : Flag) :
    (s.dropFlag f).orders.reported =
      if classSummary (clearIn s.orders.faults f) = classSummary s.orders.faults then s.orders.reported else none := rfl

/-! `State.mapPosition` -/

@[simp] theorem State.mapPosition_pending (s : State) (pid : Nat) (f : Position → Position) :
    (s.mapPosition pid f).pending = s.pending := rfl
@[simp] theorem State.mapPosition_phase (s : State) (pid : Nat) (f : Position → Position) :
    (s.mapPosition pid f).phase = s.phase := rfl
@[simp] theorem State.mapPosition_time (s : State) (pid : Nat) (f : Position → Position) :
    (s.mapPosition pid f).time = s.time := rfl
@[simp] theorem State.mapPosition_ports (s : State) (pid : Nat) (f : Position → Position) :
    (s.mapPosition pid f).ports = s.ports := rfl
@[simp] theorem State.mapPosition_sources (s : State) (pid : Nat) (f : Position → Position) :
    (s.mapPosition pid f).sources = s.sources := rfl
@[simp] theorem State.mapPosition_control (s : State) (pid : Nat) (f : Position → Position) :
    (s.mapPosition pid f).control = s.control := rfl
@[simp] theorem State.mapPosition_capability (s : State) (pid : Nat) (f : Position → Position) :
    (s.mapPosition pid f).capability = s.capability := rfl
@[simp] theorem State.mapPosition_blender (s : State) (pid : Nat) (f : Position → Position) :
    (s.mapPosition pid f).blender = s.blender := rfl
@[simp] theorem State.mapPosition_slide (s : State) (pid : Nat) (f : Position → Position) :
    (s.mapPosition pid f).slide = s.slide := rfl
@[simp] theorem State.mapPosition_builder (s : State) (pid : Nat) (f : Position → Position) :
    (s.mapPosition pid f).builder = s.builder := rfl
@[simp] theorem State.mapPosition_tables (s : State) (pid : Nat) (f : Position → Position) :
    (s.mapPosition pid f).tables = s.tables := rfl
@[simp] theorem State.mapPosition_capture (s : State) (pid : Nat) (f : Position → Position) :
    (s.mapPosition pid f).capture = s.capture := rfl
@[simp] theorem State.mapPosition_store (s : State) (pid : Nat) (f : Position → Position) :
    (s.mapPosition pid f).store = s.store := rfl
@[simp] theorem State.mapPosition_slot (s : State) (pid : Nat) (f : Position → Position) :
    (s.mapPosition pid f).orders.slot = s.orders.slot := rfl
@[simp] theorem State.mapPosition_positions (s : State) (pid : Nat) (f : Position → Position) :
    (s.mapPosition pid f).orders.positions = updatePosition pid f s.orders.positions := rfl
@[simp] theorem State.mapPosition_faults (s : State) (pid : Nat) (f : Position → Position) :
    (s.mapPosition pid f).orders.faults = s.orders.faults := rfl
@[simp] theorem State.mapPosition_statusDeadline (s : State) (pid : Nat) (f : Position → Position) :
    (s.mapPosition pid f).orders.statusDeadline = s.orders.statusDeadline := rfl
@[simp] theorem State.mapPosition_restarts (s : State) (pid : Nat) (f : Position → Position) :
    (s.mapPosition pid f).orders.restarts = s.orders.restarts := rfl
@[simp] theorem State.mapPosition_restarting (s : State) (pid : Nat) (f : Position → Position) :
    (s.mapPosition pid f).orders.restarting = s.orders.restarting := rfl
@[simp] theorem State.mapPosition_nextPid (s : State) (pid : Nat) (f : Position → Position) :
    (s.mapPosition pid f).orders.nextPid = s.orders.nextPid := rfl
@[simp] theorem State.mapPosition_reported (s : State) (pid : Nat) (f : Position → Position) :
    (s.mapPosition pid f).orders.reported = s.orders.reported := rfl

/-! `State.noteReport` -/

@[simp] theorem State.noteReport_pending (s : State) : (s.noteReport).pending = s.pending := rfl
@[simp] theorem State.noteReport_phase (s : State) : (s.noteReport).phase = s.phase := rfl
@[simp] theorem State.noteReport_time (s : State) : (s.noteReport).time = s.time := rfl
@[simp] theorem State.noteReport_ports (s : State) : (s.noteReport).ports = s.ports := rfl
@[simp] theorem State.noteReport_sources (s : State) : (s.noteReport).sources = s.sources := rfl
@[simp] theorem State.noteReport_control (s : State) : (s.noteReport).control = s.control := rfl
@[simp] theorem State.noteReport_capability (s : State) : (s.noteReport).capability = s.capability := rfl
@[simp] theorem State.noteReport_blender (s : State) : (s.noteReport).blender = s.blender := rfl
@[simp] theorem State.noteReport_slide (s : State) : (s.noteReport).slide = s.slide := rfl
@[simp] theorem State.noteReport_builder (s : State) : (s.noteReport).builder = s.builder := rfl
@[simp] theorem State.noteReport_tables (s : State) : (s.noteReport).tables = s.tables := rfl
@[simp] theorem State.noteReport_capture (s : State) : (s.noteReport).capture = s.capture := rfl
@[simp] theorem State.noteReport_store (s : State) : (s.noteReport).store = s.store := rfl
@[simp] theorem State.noteReport_slot (s : State) : (s.noteReport).orders.slot = s.orders.slot := rfl
@[simp] theorem State.noteReport_positions (s : State) : (s.noteReport).orders.positions = s.orders.positions := rfl
@[simp] theorem State.noteReport_faults (s : State) : (s.noteReport).orders.faults = s.orders.faults := rfl
@[simp] theorem State.noteReport_statusDeadline (s : State) :
    (s.noteReport).orders.statusDeadline = s.orders.statusDeadline := rfl
@[simp] theorem State.noteReport_restarts (s : State) : (s.noteReport).orders.restarts = s.orders.restarts := rfl
@[simp] theorem State.noteReport_restarting (s : State) :
    (s.noteReport).orders.restarting = s.orders.restarting := rfl
@[simp] theorem State.noteReport_nextPid (s : State) : (s.noteReport).orders.nextPid = s.orders.nextPid := rfl
@[simp] theorem State.noteReport_reported (s : State) : (s.noteReport).orders.reported = some s.statusKey := rfl

/-! `State.withBuilder` -/

@[simp] theorem State.withBuilder_pending (s : State) (b : Builder) : (s.withBuilder b).pending = s.pending := rfl
@[simp] theorem State.withBuilder_phase (s : State) (b : Builder) : (s.withBuilder b).phase = s.phase := rfl
@[simp] theorem State.withBuilder_time (s : State) (b : Builder) : (s.withBuilder b).time = s.time := rfl
@[simp] theorem State.withBuilder_ports (s : State) (b : Builder) : (s.withBuilder b).ports = s.ports := rfl
@[simp] theorem State.withBuilder_sources (s : State) (b : Builder) : (s.withBuilder b).sources = s.sources := rfl
@[simp] theorem State.withBuilder_control (s : State) (b : Builder) : (s.withBuilder b).control = s.control := rfl
@[simp] theorem State.withBuilder_capability (s : State) (b : Builder) :
    (s.withBuilder b).capability = s.capability := rfl
@[simp] theorem State.withBuilder_blender (s : State) (b : Builder) : (s.withBuilder b).blender = s.blender := rfl
@[simp] theorem State.withBuilder_slide (s : State) (b : Builder) : (s.withBuilder b).slide = s.slide := rfl
@[simp] theorem State.withBuilder_tables (s : State) (b : Builder) : (s.withBuilder b).tables = s.tables := rfl
@[simp] theorem State.withBuilder_capture (s : State) (b : Builder) : (s.withBuilder b).capture = s.capture := rfl
@[simp] theorem State.withBuilder_store (s : State) (b : Builder) : (s.withBuilder b).store = s.store := rfl
@[simp] theorem State.withBuilder_orders (s : State) (b : Builder) : (s.withBuilder b).orders = s.orders := rfl
@[simp] theorem State.withBuilder_builder (s : State) (b : Builder) : (s.withBuilder b).builder = b := rfl

/-! `State.setTruckChannel` -/

@[simp] theorem State.setTruckChannel_pending (s : State) (k : Truck) (e : ChannelEntry) :
    (s.setTruckChannel k e).pending = s.pending := rfl
@[simp] theorem State.setTruckChannel_phase (s : State) (k : Truck) (e : ChannelEntry) :
    (s.setTruckChannel k e).phase = s.phase := rfl
@[simp] theorem State.setTruckChannel_time (s : State) (k : Truck) (e : ChannelEntry) :
    (s.setTruckChannel k e).time = s.time := rfl
@[simp] theorem State.setTruckChannel_ports (s : State) (k : Truck) (e : ChannelEntry) :
    (s.setTruckChannel k e).ports = s.ports := rfl
@[simp] theorem State.setTruckChannel_sources (s : State) (k : Truck) (e : ChannelEntry) :
    (s.setTruckChannel k e).sources = s.sources := rfl
@[simp] theorem State.setTruckChannel_capability (s : State) (k : Truck) (e : ChannelEntry) :
    (s.setTruckChannel k e).capability = s.capability := rfl
@[simp] theorem State.setTruckChannel_blender (s : State) (k : Truck) (e : ChannelEntry) :
    (s.setTruckChannel k e).blender = s.blender := rfl
@[simp] theorem State.setTruckChannel_slide (s : State) (k : Truck) (e : ChannelEntry) :
    (s.setTruckChannel k e).slide = s.slide := rfl
@[simp] theorem State.setTruckChannel_builder (s : State) (k : Truck) (e : ChannelEntry) :
    (s.setTruckChannel k e).builder = s.builder := rfl
@[simp] theorem State.setTruckChannel_tables (s : State) (k : Truck) (e : ChannelEntry) :
    (s.setTruckChannel k e).tables = s.tables := rfl
@[simp] theorem State.setTruckChannel_capture (s : State) (k : Truck) (e : ChannelEntry) :
    (s.setTruckChannel k e).capture = s.capture := rfl
@[simp] theorem State.setTruckChannel_store (s : State) (k : Truck) (e : ChannelEntry) :
    (s.setTruckChannel k e).store = s.store := rfl
@[simp] theorem State.setTruckChannel_orders (s : State) (k : Truck) (e : ChannelEntry) :
    (s.setTruckChannel k e).orders = s.orders := rfl
@[simp] theorem State.setTruckChannel_partState (s : State) (k : Truck) (e : ChannelEntry) :
    (s.setTruckChannel k e).control.partState = s.control.partState := rfl
@[simp] theorem State.setTruckChannel_demand (s : State) (k : Truck) (e : ChannelEntry) :
    (s.setTruckChannel k e).control.demand = s.control.demand := rfl
@[simp] theorem State.setTruckChannel_goodCount (s : State) (k : Truck) (e : ChannelEntry) :
    (s.setTruckChannel k e).control.goodCount = s.control.goodCount := rfl
@[simp] theorem State.setTruckChannel_timer (s : State) (k : Truck) (e : ChannelEntry) :
    (s.setTruckChannel k e).control.timer = s.control.timer := rfl
@[simp] theorem State.setTruckChannel_axles (s : State) (k : Truck) (e : ChannelEntry) :
    (s.setTruckChannel k e).control.axles = s.control.axles := rfl
@[simp] theorem State.setTruckChannel_trucks (s : State) (k : Truck) (e : ChannelEntry) :
    (s.setTruckChannel k e).control.trucks = s.control.trucks.set k e := rfl

/-! `State.setAxleChannel` -/

@[simp] theorem State.setAxleChannel_pending (s : State) (a : Axle) (e : ChannelEntry) :
    (s.setAxleChannel a e).pending = s.pending := rfl
@[simp] theorem State.setAxleChannel_phase (s : State) (a : Axle) (e : ChannelEntry) :
    (s.setAxleChannel a e).phase = s.phase := rfl
@[simp] theorem State.setAxleChannel_time (s : State) (a : Axle) (e : ChannelEntry) :
    (s.setAxleChannel a e).time = s.time := rfl
@[simp] theorem State.setAxleChannel_ports (s : State) (a : Axle) (e : ChannelEntry) :
    (s.setAxleChannel a e).ports = s.ports := rfl
@[simp] theorem State.setAxleChannel_sources (s : State) (a : Axle) (e : ChannelEntry) :
    (s.setAxleChannel a e).sources = s.sources := rfl
@[simp] theorem State.setAxleChannel_capability (s : State) (a : Axle) (e : ChannelEntry) :
    (s.setAxleChannel a e).capability = s.capability := rfl
@[simp] theorem State.setAxleChannel_blender (s : State) (a : Axle) (e : ChannelEntry) :
    (s.setAxleChannel a e).blender = s.blender := rfl
@[simp] theorem State.setAxleChannel_slide (s : State) (a : Axle) (e : ChannelEntry) :
    (s.setAxleChannel a e).slide = s.slide := rfl
@[simp] theorem State.setAxleChannel_builder (s : State) (a : Axle) (e : ChannelEntry) :
    (s.setAxleChannel a e).builder = s.builder := rfl
@[simp] theorem State.setAxleChannel_tables (s : State) (a : Axle) (e : ChannelEntry) :
    (s.setAxleChannel a e).tables = s.tables := rfl
@[simp] theorem State.setAxleChannel_capture (s : State) (a : Axle) (e : ChannelEntry) :
    (s.setAxleChannel a e).capture = s.capture := rfl
@[simp] theorem State.setAxleChannel_store (s : State) (a : Axle) (e : ChannelEntry) :
    (s.setAxleChannel a e).store = s.store := rfl
@[simp] theorem State.setAxleChannel_orders (s : State) (a : Axle) (e : ChannelEntry) :
    (s.setAxleChannel a e).orders = s.orders := rfl
@[simp] theorem State.setAxleChannel_partState (s : State) (a : Axle) (e : ChannelEntry) :
    (s.setAxleChannel a e).control.partState = s.control.partState := rfl
@[simp] theorem State.setAxleChannel_demand (s : State) (a : Axle) (e : ChannelEntry) :
    (s.setAxleChannel a e).control.demand = s.control.demand := rfl
@[simp] theorem State.setAxleChannel_goodCount (s : State) (a : Axle) (e : ChannelEntry) :
    (s.setAxleChannel a e).control.goodCount = s.control.goodCount := rfl
@[simp] theorem State.setAxleChannel_timer (s : State) (a : Axle) (e : ChannelEntry) :
    (s.setAxleChannel a e).control.timer = s.control.timer := rfl
@[simp] theorem State.setAxleChannel_axles (s : State) (a : Axle) (e : ChannelEntry) :
    (s.setAxleChannel a e).control.axles = s.control.axles.set a e := rfl
@[simp] theorem State.setAxleChannel_trucks (s : State) (a : Axle) (e : ChannelEntry) :
    (s.setAxleChannel a e).control.trucks = s.control.trucks := rfl

/-! `State.setSupervision` -/

@[simp] theorem State.setSupervision_pending (s : State) (k : Truck) (r : Supervision) :
    (s.setSupervision k r).pending = s.pending := rfl
@[simp] theorem State.setSupervision_phase (s : State) (k : Truck) (r : Supervision) :
    (s.setSupervision k r).phase = s.phase := rfl
@[simp] theorem State.setSupervision_time (s : State) (k : Truck) (r : Supervision) :
    (s.setSupervision k r).time = s.time := rfl
@[simp] theorem State.setSupervision_ports (s : State) (k : Truck) (r : Supervision) :
    (s.setSupervision k r).ports = s.ports := rfl
@[simp] theorem State.setSupervision_sources (s : State) (k : Truck) (r : Supervision) :
    (s.setSupervision k r).sources = s.sources := rfl
@[simp] theorem State.setSupervision_control (s : State) (k : Truck) (r : Supervision) :
    (s.setSupervision k r).control = s.control := rfl
@[simp] theorem State.setSupervision_capability (s : State) (k : Truck) (r : Supervision) :
    (s.setSupervision k r).capability = s.capability := rfl
@[simp] theorem State.setSupervision_blender (s : State) (k : Truck) (r : Supervision) :
    (s.setSupervision k r).blender = s.blender := rfl
@[simp] theorem State.setSupervision_slide (s : State) (k : Truck) (r : Supervision) :
    (s.setSupervision k r).slide = s.slide := rfl
@[simp] theorem State.setSupervision_tables (s : State) (k : Truck) (r : Supervision) :
    (s.setSupervision k r).tables = s.tables := rfl
@[simp] theorem State.setSupervision_capture (s : State) (k : Truck) (r : Supervision) :
    (s.setSupervision k r).capture = s.capture := rfl
@[simp] theorem State.setSupervision_store (s : State) (k : Truck) (r : Supervision) :
    (s.setSupervision k r).store = s.store := rfl
@[simp] theorem State.setSupervision_orders (s : State) (k : Truck) (r : Supervision) :
    (s.setSupervision k r).orders = s.orders := rfl
@[simp] theorem State.setSupervision_last (s : State) (k : Truck) (r : Supervision) :
    (s.setSupervision k r).builder.last = s.builder.last := rfl
@[simp] theorem State.setSupervision_copy (s : State) (k : Truck) (r : Supervision) :
    (s.setSupervision k r).builder.copy = s.builder.copy := rfl
@[simp] theorem State.setSupervision_trucks (s : State) (k : Truck) (r : Supervision) :
    (s.setSupervision k r).builder.trucks = s.builder.trucks := rfl
@[simp] theorem State.setSupervision_feedback (s : State) (k : Truck) (r : Supervision) :
    (s.setSupervision k r).builder.feedback = s.builder.feedback := rfl
@[simp] theorem State.setSupervision_supervision (s : State) (k : Truck) (r : Supervision) :
    (s.setSupervision k r).builder.supervision = s.builder.supervision.set k r := rfl
@[simp] theorem State.setSupervision_calibration (s : State) (k : Truck) (r : Supervision) :
    (s.setSupervision k r).builder.calibration = s.builder.calibration := rfl

/-! `State.deriveActions` -/

@[simp] theorem State.deriveActions_pending (s : State) (e : PerAxle Nat) :
    (s.deriveActions e).pending = s.pending := rfl
@[simp] theorem State.deriveActions_phase (s : State) (e : PerAxle Nat) : (s.deriveActions e).phase = s.phase := rfl
@[simp] theorem State.deriveActions_time (s : State) (e : PerAxle Nat) : (s.deriveActions e).time = s.time := rfl
@[simp] theorem State.deriveActions_ports (s : State) (e : PerAxle Nat) : (s.deriveActions e).ports = s.ports := rfl
@[simp] theorem State.deriveActions_sources (s : State) (e : PerAxle Nat) :
    (s.deriveActions e).sources = s.sources := rfl
@[simp] theorem State.deriveActions_control (s : State) (e : PerAxle Nat) :
    (s.deriveActions e).control = s.control := rfl
@[simp] theorem State.deriveActions_capability (s : State) (e : PerAxle Nat) :
    (s.deriveActions e).capability = s.capability := rfl
@[simp] theorem State.deriveActions_blender (s : State) (e : PerAxle Nat) :
    (s.deriveActions e).blender = s.blender := rfl
@[simp] theorem State.deriveActions_slide (s : State) (e : PerAxle Nat) : (s.deriveActions e).slide = s.slide := rfl
@[simp] theorem State.deriveActions_tables (s : State) (e : PerAxle Nat) :
    (s.deriveActions e).tables = s.tables := rfl
@[simp] theorem State.deriveActions_capture (s : State) (e : PerAxle Nat) :
    (s.deriveActions e).capture = s.capture := rfl
@[simp] theorem State.deriveActions_store (s : State) (e : PerAxle Nat) : (s.deriveActions e).store = s.store := rfl
@[simp] theorem State.deriveActions_orders (s : State) (e : PerAxle Nat) :
    (s.deriveActions e).orders = s.orders := rfl
@[simp] theorem State.deriveActions_last (s : State) (e : PerAxle Nat) :
    (s.deriveActions e).builder.last = s.builder.last := rfl
@[simp] theorem State.deriveActions_copy (s : State) (e : PerAxle Nat) :
    (s.deriveActions e).builder.copy = s.builder.copy := rfl
@[simp] theorem State.deriveActions_trucks (s : State) (e : PerAxle Nat) :
    (s.deriveActions e).builder.trucks = PerTruck.ofFn (fun k => s.actionRecord k (s.deriveAction e k)) := rfl
@[simp] theorem State.deriveActions_feedback (s : State) (e : PerAxle Nat) :
    (s.deriveActions e).builder.feedback = s.builder.feedback := rfl
@[simp] theorem State.deriveActions_supervision (s : State) (e : PerAxle Nat) :
    (s.deriveActions e).builder.supervision = s.builder.supervision := rfl
@[simp] theorem State.deriveActions_calibration (s : State) (e : PerAxle Nat) :
    (s.deriveActions e).builder.calibration = s.builder.calibration := rfl

/-! `State.normalActions` -/

@[simp] theorem State.normalActions_pending (s : State) : (s.normalActions).pending = s.pending := rfl
@[simp] theorem State.normalActions_phase (s : State) : (s.normalActions).phase = s.phase := rfl
@[simp] theorem State.normalActions_time (s : State) : (s.normalActions).time = s.time := rfl
@[simp] theorem State.normalActions_ports (s : State) : (s.normalActions).ports = s.ports := rfl
@[simp] theorem State.normalActions_sources (s : State) : (s.normalActions).sources = s.sources := rfl
@[simp] theorem State.normalActions_control (s : State) : (s.normalActions).control = s.control := rfl
@[simp] theorem State.normalActions_capability (s : State) : (s.normalActions).capability = s.capability := rfl
@[simp] theorem State.normalActions_blender (s : State) : (s.normalActions).blender = s.blender := rfl
@[simp] theorem State.normalActions_slide (s : State) : (s.normalActions).slide = s.slide := rfl
@[simp] theorem State.normalActions_tables (s : State) : (s.normalActions).tables = s.tables := rfl
@[simp] theorem State.normalActions_capture (s : State) : (s.normalActions).capture = s.capture := rfl
@[simp] theorem State.normalActions_store (s : State) : (s.normalActions).store = s.store := rfl
@[simp] theorem State.normalActions_orders (s : State) : (s.normalActions).orders = s.orders := rfl
@[simp] theorem State.normalActions_last (s : State) : (s.normalActions).builder.last = s.builder.last := rfl
@[simp] theorem State.normalActions_copy (s : State) : (s.normalActions).builder.copy = s.builder.copy := rfl
@[simp] theorem State.normalActions_trucks (s : State) :
    (s.normalActions).builder.trucks = ⟨⟨.normal, none, none⟩, ⟨.normal, none, none⟩⟩ := rfl
@[simp] theorem State.normalActions_feedback (s : State) :
    (s.normalActions).builder.feedback = s.builder.feedback := rfl
@[simp] theorem State.normalActions_supervision (s : State) :
    (s.normalActions).builder.supervision = s.builder.supervision := rfl
@[simp] theorem State.normalActions_calibration (s : State) :
    (s.normalActions).builder.calibration = s.builder.calibration := rfl

/-! `State.withPartState` -/

@[simp] theorem State.withPartState_pending (s : State) (p : PartState) :
    (s.withPartState p).pending = s.pending := rfl
@[simp] theorem State.withPartState_phase (s : State) (p : PartState) : (s.withPartState p).phase = s.phase := rfl
@[simp] theorem State.withPartState_time (s : State) (p : PartState) : (s.withPartState p).time = s.time := rfl
@[simp] theorem State.withPartState_ports (s : State) (p : PartState) : (s.withPartState p).ports = s.ports := rfl
@[simp] theorem State.withPartState_sources (s : State) (p : PartState) :
    (s.withPartState p).sources = s.sources := rfl
@[simp] theorem State.withPartState_capability (s : State) (p : PartState) :
    (s.withPartState p).capability = s.capability := rfl
@[simp] theorem State.withPartState_blender (s : State) (p : PartState) :
    (s.withPartState p).blender = s.blender := rfl
@[simp] theorem State.withPartState_slide (s : State) (p : PartState) : (s.withPartState p).slide = s.slide := rfl
@[simp] theorem State.withPartState_builder (s : State) (p : PartState) :
    (s.withPartState p).builder = s.builder := rfl
@[simp] theorem State.withPartState_tables (s : State) (p : PartState) : (s.withPartState p).tables = s.tables := rfl
@[simp] theorem State.withPartState_capture (s : State) (p : PartState) :
    (s.withPartState p).capture = s.capture := rfl
@[simp] theorem State.withPartState_store (s : State) (p : PartState) : (s.withPartState p).store = s.store := rfl
@[simp] theorem State.withPartState_orders (s : State) (p : PartState) : (s.withPartState p).orders = s.orders := rfl
@[simp] theorem State.withPartState_partState (s : State) (p : PartState) :
    (s.withPartState p).control.partState = p := rfl
@[simp] theorem State.withPartState_demand (s : State) (p : PartState) :
    (s.withPartState p).control.demand = s.control.demand := rfl
@[simp] theorem State.withPartState_goodCount (s : State) (p : PartState) :
    (s.withPartState p).control.goodCount = s.control.goodCount := rfl
@[simp] theorem State.withPartState_timer (s : State) (p : PartState) :
    (s.withPartState p).control.timer = s.control.timer := rfl
@[simp] theorem State.withPartState_axles (s : State) (p : PartState) :
    (s.withPartState p).control.axles = s.control.axles := rfl
@[simp] theorem State.withPartState_trucks (s : State) (p : PartState) :
    (s.withPartState p).control.trucks = s.control.trucks := rfl

/-! `State.withTimer` -/

@[simp] theorem State.withTimer_pending (s : State) (t : DemandTimer) : (s.withTimer t).pending = s.pending := rfl
@[simp] theorem State.withTimer_phase (s : State) (t : DemandTimer) : (s.withTimer t).phase = s.phase := rfl
@[simp] theorem State.withTimer_time (s : State) (t : DemandTimer) : (s.withTimer t).time = s.time := rfl
@[simp] theorem State.withTimer_ports (s : State) (t : DemandTimer) : (s.withTimer t).ports = s.ports := rfl
@[simp] theorem State.withTimer_sources (s : State) (t : DemandTimer) : (s.withTimer t).sources = s.sources := rfl
@[simp] theorem State.withTimer_capability (s : State) (t : DemandTimer) :
    (s.withTimer t).capability = s.capability := rfl
@[simp] theorem State.withTimer_blender (s : State) (t : DemandTimer) : (s.withTimer t).blender = s.blender := rfl
@[simp] theorem State.withTimer_slide (s : State) (t : DemandTimer) : (s.withTimer t).slide = s.slide := rfl
@[simp] theorem State.withTimer_builder (s : State) (t : DemandTimer) : (s.withTimer t).builder = s.builder := rfl
@[simp] theorem State.withTimer_tables (s : State) (t : DemandTimer) : (s.withTimer t).tables = s.tables := rfl
@[simp] theorem State.withTimer_capture (s : State) (t : DemandTimer) : (s.withTimer t).capture = s.capture := rfl
@[simp] theorem State.withTimer_store (s : State) (t : DemandTimer) : (s.withTimer t).store = s.store := rfl
@[simp] theorem State.withTimer_orders (s : State) (t : DemandTimer) : (s.withTimer t).orders = s.orders := rfl
@[simp] theorem State.withTimer_partState (s : State) (t : DemandTimer) :
    (s.withTimer t).control.partState = s.control.partState := rfl
@[simp] theorem State.withTimer_demand (s : State) (t : DemandTimer) :
    (s.withTimer t).control.demand = s.control.demand := rfl
@[simp] theorem State.withTimer_goodCount (s : State) (t : DemandTimer) :
    (s.withTimer t).control.goodCount = s.control.goodCount := rfl
@[simp] theorem State.withTimer_timer (s : State) (t : DemandTimer) : (s.withTimer t).control.timer = t := rfl
@[simp] theorem State.withTimer_axles (s : State) (t : DemandTimer) :
    (s.withTimer t).control.axles = s.control.axles := rfl
@[simp] theorem State.withTimer_trucks (s : State) (t : DemandTimer) :
    (s.withTimer t).control.trucks = s.control.trucks := rfl

/-! `State.withAlloc` -/

@[simp] theorem State.withAlloc_pending (s : State) (t : AllocTable) : (s.withAlloc t).pending = s.pending := rfl
@[simp] theorem State.withAlloc_phase (s : State) (t : AllocTable) : (s.withAlloc t).phase = s.phase := rfl
@[simp] theorem State.withAlloc_time (s : State) (t : AllocTable) : (s.withAlloc t).time = s.time := rfl
@[simp] theorem State.withAlloc_ports (s : State) (t : AllocTable) : (s.withAlloc t).ports = s.ports := rfl
@[simp] theorem State.withAlloc_sources (s : State) (t : AllocTable) : (s.withAlloc t).sources = s.sources := rfl
@[simp] theorem State.withAlloc_control (s : State) (t : AllocTable) : (s.withAlloc t).control = s.control := rfl
@[simp] theorem State.withAlloc_capability (s : State) (t : AllocTable) :
    (s.withAlloc t).capability = s.capability := rfl
@[simp] theorem State.withAlloc_slide (s : State) (t : AllocTable) : (s.withAlloc t).slide = s.slide := rfl
@[simp] theorem State.withAlloc_builder (s : State) (t : AllocTable) : (s.withAlloc t).builder = s.builder := rfl
@[simp] theorem State.withAlloc_tables (s : State) (t : AllocTable) : (s.withAlloc t).tables = s.tables := rfl
@[simp] theorem State.withAlloc_capture (s : State) (t : AllocTable) : (s.withAlloc t).capture = s.capture := rfl
@[simp] theorem State.withAlloc_store (s : State) (t : AllocTable) : (s.withAlloc t).store = s.store := rfl
@[simp] theorem State.withAlloc_orders (s : State) (t : AllocTable) : (s.withAlloc t).orders = s.orders := rfl
@[simp] theorem State.withAlloc_alloc (s : State) (t : AllocTable) : (s.withAlloc t).blender.alloc = t := rfl
@[simp] theorem State.withAlloc_record (s : State) (t : AllocTable) :
    (s.withAlloc t).blender.record = s.blender.record := rfl
@[simp] theorem State.withAlloc_number (s : State) (t : AllocTable) :
    (s.withAlloc t).blender.number = s.blender.number := rfl
@[simp] theorem State.withAlloc_shortRun (s : State) (t : AllocTable) :
    (s.withAlloc t).blender.shortRun = s.blender.shortRun := rfl

/-! `State.withStore` -/

@[simp] theorem State.withStore_pending (s : State) (t : Store) : (s.withStore t).pending = s.pending := rfl
@[simp] theorem State.withStore_phase (s : State) (t : Store) : (s.withStore t).phase = s.phase := rfl
@[simp] theorem State.withStore_time (s : State) (t : Store) : (s.withStore t).time = s.time := rfl
@[simp] theorem State.withStore_ports (s : State) (t : Store) : (s.withStore t).ports = s.ports := rfl
@[simp] theorem State.withStore_sources (s : State) (t : Store) : (s.withStore t).sources = s.sources := rfl
@[simp] theorem State.withStore_control (s : State) (t : Store) : (s.withStore t).control = s.control := rfl
@[simp] theorem State.withStore_capability (s : State) (t : Store) : (s.withStore t).capability = s.capability := rfl
@[simp] theorem State.withStore_blender (s : State) (t : Store) : (s.withStore t).blender = s.blender := rfl
@[simp] theorem State.withStore_slide (s : State) (t : Store) : (s.withStore t).slide = s.slide := rfl
@[simp] theorem State.withStore_builder (s : State) (t : Store) : (s.withStore t).builder = s.builder := rfl
@[simp] theorem State.withStore_tables (s : State) (t : Store) : (s.withStore t).tables = s.tables := rfl
@[simp] theorem State.withStore_capture (s : State) (t : Store) : (s.withStore t).capture = s.capture := rfl
@[simp] theorem State.withStore_orders (s : State) (t : Store) : (s.withStore t).orders = s.orders := rfl
@[simp] theorem State.withStore_store (s : State) (t : Store) : (s.withStore t).store = t := rfl

/-! `State.withJob` -/

@[simp] theorem State.withJob_pending (s : State) (j : StoreJob) : (s.withJob j).pending = s.pending := rfl
@[simp] theorem State.withJob_phase (s : State) (j : StoreJob) : (s.withJob j).phase = s.phase := rfl
@[simp] theorem State.withJob_time (s : State) (j : StoreJob) : (s.withJob j).time = s.time := rfl
@[simp] theorem State.withJob_ports (s : State) (j : StoreJob) : (s.withJob j).ports = s.ports := rfl
@[simp] theorem State.withJob_sources (s : State) (j : StoreJob) : (s.withJob j).sources = s.sources := rfl
@[simp] theorem State.withJob_control (s : State) (j : StoreJob) : (s.withJob j).control = s.control := rfl
@[simp] theorem State.withJob_capability (s : State) (j : StoreJob) : (s.withJob j).capability = s.capability := rfl
@[simp] theorem State.withJob_blender (s : State) (j : StoreJob) : (s.withJob j).blender = s.blender := rfl
@[simp] theorem State.withJob_slide (s : State) (j : StoreJob) : (s.withJob j).slide = s.slide := rfl
@[simp] theorem State.withJob_builder (s : State) (j : StoreJob) : (s.withJob j).builder = s.builder := rfl
@[simp] theorem State.withJob_tables (s : State) (j : StoreJob) : (s.withJob j).tables = s.tables := rfl
@[simp] theorem State.withJob_capture (s : State) (j : StoreJob) : (s.withJob j).capture = s.capture := rfl
@[simp] theorem State.withJob_orders (s : State) (j : StoreJob) : (s.withJob j).orders = s.orders := rfl
@[simp] theorem State.withJob_pages (s : State) (j : StoreJob) : (s.withJob j).store.pages = s.store.pages := rfl
@[simp] theorem State.withJob_retireMarks (s : State) (j : StoreJob) :
    (s.withJob j).store.retireMarks = s.store.retireMarks := rfl
@[simp] theorem State.withJob_banks (s : State) (j : StoreJob) : (s.withJob j).store.banks = s.store.banks := rfl
@[simp] theorem State.withJob_queue (s : State) (j : StoreJob) : (s.withJob j).store.queue = s.store.queue := rfl
@[simp] theorem State.withJob_directory (s : State) (j : StoreJob) :
    (s.withJob j).store.directory = s.store.directory := rfl
@[simp] theorem State.withJob_nextIncident (s : State) (j : StoreJob) :
    (s.withJob j).store.nextIncident = s.store.nextIncident := rfl
@[simp] theorem State.withJob_pins (s : State) (j : StoreJob) : (s.withJob j).store.pins = s.store.pins := rfl
@[simp] theorem State.withJob_cursor (s : State) (j : StoreJob) : (s.withJob j).store.cursor = s.store.cursor := rfl
@[simp] theorem State.withJob_scan (s : State) (j : StoreJob) : (s.withJob j).store.scan = s.store.scan := rfl
@[simp] theorem State.withJob_op (s : State) (j : StoreJob) : (s.withJob j).store.op = s.store.op := rfl
@[simp] theorem State.withJob_erases (s : State) (j : StoreJob) : (s.withJob j).store.erases = s.store.erases := rfl
@[simp] theorem State.withJob_lastWriting (s : State) (j : StoreJob) :
    (s.withJob j).store.lastWriting = s.store.lastWriting := rfl
@[simp] theorem State.withJob_job (s : State) (j : StoreJob) : (s.withJob j).store.job = some j := rfl

/-! `State.withStaging` -/

@[simp] theorem State.withStaging_pending (s : State) (t : Staging) : (s.withStaging t).pending = s.pending := rfl
@[simp] theorem State.withStaging_phase (s : State) (t : Staging) : (s.withStaging t).phase = s.phase := rfl
@[simp] theorem State.withStaging_time (s : State) (t : Staging) : (s.withStaging t).time = s.time := rfl
@[simp] theorem State.withStaging_ports (s : State) (t : Staging) : (s.withStaging t).ports = s.ports := rfl
@[simp] theorem State.withStaging_sources (s : State) (t : Staging) : (s.withStaging t).sources = s.sources := rfl
@[simp] theorem State.withStaging_control (s : State) (t : Staging) : (s.withStaging t).control = s.control := rfl
@[simp] theorem State.withStaging_capability (s : State) (t : Staging) :
    (s.withStaging t).capability = s.capability := rfl
@[simp] theorem State.withStaging_blender (s : State) (t : Staging) : (s.withStaging t).blender = s.blender := rfl
@[simp] theorem State.withStaging_slide (s : State) (t : Staging) : (s.withStaging t).slide = s.slide := rfl
@[simp] theorem State.withStaging_builder (s : State) (t : Staging) : (s.withStaging t).builder = s.builder := rfl
@[simp] theorem State.withStaging_capture (s : State) (t : Staging) : (s.withStaging t).capture = s.capture := rfl
@[simp] theorem State.withStaging_store (s : State) (t : Staging) : (s.withStaging t).store = s.store := rfl
@[simp] theorem State.withStaging_orders (s : State) (t : Staging) : (s.withStaging t).orders = s.orders := rfl
@[simp] theorem State.withStaging_active (s : State) (t : Staging) :
    (s.withStaging t).tables.active = s.tables.active := rfl
@[simp] theorem State.withStaging_staging (s : State) (t : Staging) : (s.withStaging t).tables.staging = t := rfl
@[simp] theorem State.withStaging_slots (s : State) (t : Staging) :
    (s.withStaging t).tables.slots = s.tables.slots := rfl
@[simp] theorem State.withStaging_selection (s : State) (t : Staging) :
    (s.withStaging t).tables.selection = s.tables.selection := rfl
@[simp] theorem State.withStaging_save (s : State) (t : Staging) :
    (s.withStaging t).tables.save = s.tables.save := rfl

/-! `State.withRecorder` -/

@[simp] theorem State.withRecorder_pending (s : State) (r : RecorderState) :
    (s.withRecorder r).pending = s.pending := rfl
@[simp] theorem State.withRecorder_phase (s : State) (r : RecorderState) : (s.withRecorder r).phase = s.phase := rfl
@[simp] theorem State.withRecorder_time (s : State) (r : RecorderState) : (s.withRecorder r).time = s.time := rfl
@[simp] theorem State.withRecorder_ports (s : State) (r : RecorderState) : (s.withRecorder r).ports = s.ports := rfl
@[simp] theorem State.withRecorder_sources (s : State) (r : RecorderState) :
    (s.withRecorder r).sources = s.sources := rfl
@[simp] theorem State.withRecorder_control (s : State) (r : RecorderState) :
    (s.withRecorder r).control = s.control := rfl
@[simp] theorem State.withRecorder_capability (s : State) (r : RecorderState) :
    (s.withRecorder r).capability = s.capability := rfl
@[simp] theorem State.withRecorder_blender (s : State) (r : RecorderState) :
    (s.withRecorder r).blender = s.blender := rfl
@[simp] theorem State.withRecorder_slide (s : State) (r : RecorderState) : (s.withRecorder r).slide = s.slide := rfl
@[simp] theorem State.withRecorder_builder (s : State) (r : RecorderState) :
    (s.withRecorder r).builder = s.builder := rfl
@[simp] theorem State.withRecorder_tables (s : State) (r : RecorderState) :
    (s.withRecorder r).tables = s.tables := rfl
@[simp] theorem State.withRecorder_store (s : State) (r : RecorderState) : (s.withRecorder r).store = s.store := rfl
@[simp] theorem State.withRecorder_orders (s : State) (r : RecorderState) :
    (s.withRecorder r).orders = s.orders := rfl
@[simp] theorem State.withRecorder_counter (s : State) (r : RecorderState) :
    (s.withRecorder r).capture.counter = s.capture.counter := rfl
@[simp] theorem State.withRecorder_ring (s : State) (r : RecorderState) :
    (s.withRecorder r).capture.ring = s.capture.ring := rfl
@[simp] theorem State.withRecorder_recorder (s : State) (r : RecorderState) :
    (s.withRecorder r).capture.recorder = r := rfl
@[simp] theorem State.withRecorder_record (s : State) (r : RecorderState) :
    (s.withRecorder r).capture.record = s.capture.record := rfl
@[simp] theorem State.withRecorder_missedDisarmed (s : State) (r : RecorderState) :
    (s.withRecorder r).capture.missedDisarmed = s.capture.missedDisarmed := rfl
@[simp] theorem State.withRecorder_missedFull (s : State) (r : RecorderState) :
    (s.withRecorder r).capture.missedFull = s.capture.missedFull := rfl

/-! `State.mapRecord` -/

@[simp] theorem State.mapRecord_pending (s : State) (f : CaptureRecord → CaptureRecord) :
    (s.mapRecord f).pending = s.pending := rfl
@[simp] theorem State.mapRecord_phase (s : State) (f : CaptureRecord → CaptureRecord) :
    (s.mapRecord f).phase = s.phase := rfl
@[simp] theorem State.mapRecord_time (s : State) (f : CaptureRecord → CaptureRecord) :
    (s.mapRecord f).time = s.time := rfl
@[simp] theorem State.mapRecord_ports (s : State) (f : CaptureRecord → CaptureRecord) :
    (s.mapRecord f).ports = s.ports := rfl
@[simp] theorem State.mapRecord_sources (s : State) (f : CaptureRecord → CaptureRecord) :
    (s.mapRecord f).sources = s.sources := rfl
@[simp] theorem State.mapRecord_control (s : State) (f : CaptureRecord → CaptureRecord) :
    (s.mapRecord f).control = s.control := rfl
@[simp] theorem State.mapRecord_capability (s : State) (f : CaptureRecord → CaptureRecord) :
    (s.mapRecord f).capability = s.capability := rfl
@[simp] theorem State.mapRecord_blender (s : State) (f : CaptureRecord → CaptureRecord) :
    (s.mapRecord f).blender = s.blender := rfl
@[simp] theorem State.mapRecord_slide (s : State) (f : CaptureRecord → CaptureRecord) :
    (s.mapRecord f).slide = s.slide := rfl
@[simp] theorem State.mapRecord_builder (s : State) (f : CaptureRecord → CaptureRecord) :
    (s.mapRecord f).builder = s.builder := rfl
@[simp] theorem State.mapRecord_tables (s : State) (f : CaptureRecord → CaptureRecord) :
    (s.mapRecord f).tables = s.tables := rfl
@[simp] theorem State.mapRecord_store (s : State) (f : CaptureRecord → CaptureRecord) :
    (s.mapRecord f).store = s.store := rfl
@[simp] theorem State.mapRecord_orders (s : State) (f : CaptureRecord → CaptureRecord) :
    (s.mapRecord f).orders = s.orders := rfl
@[simp] theorem State.mapRecord_counter (s : State) (f : CaptureRecord → CaptureRecord) :
    (s.mapRecord f).capture.counter = s.capture.counter := rfl
@[simp] theorem State.mapRecord_ring (s : State) (f : CaptureRecord → CaptureRecord) :
    (s.mapRecord f).capture.ring = s.capture.ring := rfl
@[simp] theorem State.mapRecord_recorder (s : State) (f : CaptureRecord → CaptureRecord) :
    (s.mapRecord f).capture.recorder = s.capture.recorder := rfl
@[simp] theorem State.mapRecord_record (s : State) (f : CaptureRecord → CaptureRecord) :
    (s.mapRecord f).capture.record = s.capture.record.map f := rfl
@[simp] theorem State.mapRecord_missedDisarmed (s : State) (f : CaptureRecord → CaptureRecord) :
    (s.mapRecord f).capture.missedDisarmed = s.capture.missedDisarmed := rfl
@[simp] theorem State.mapRecord_missedFull (s : State) (f : CaptureRecord → CaptureRecord) :
    (s.mapRecord f).capture.missedFull = s.capture.missedFull := rfl

/-! `State.mapSource` -/

@[simp] theorem State.mapSource_pending (s : State) (e : Nat) (f : SourceRecord → SourceRecord) :
    (s.mapSource e f).pending = s.pending := rfl
@[simp] theorem State.mapSource_phase (s : State) (e : Nat) (f : SourceRecord → SourceRecord) :
    (s.mapSource e f).phase = s.phase := rfl
@[simp] theorem State.mapSource_time (s : State) (e : Nat) (f : SourceRecord → SourceRecord) :
    (s.mapSource e f).time = s.time := rfl
@[simp] theorem State.mapSource_ports (s : State) (e : Nat) (f : SourceRecord → SourceRecord) :
    (s.mapSource e f).ports = s.ports := rfl
@[simp] theorem State.mapSource_control (s : State) (e : Nat) (f : SourceRecord → SourceRecord) :
    (s.mapSource e f).control = s.control := rfl
@[simp] theorem State.mapSource_capability (s : State) (e : Nat) (f : SourceRecord → SourceRecord) :
    (s.mapSource e f).capability = s.capability := rfl
@[simp] theorem State.mapSource_blender (s : State) (e : Nat) (f : SourceRecord → SourceRecord) :
    (s.mapSource e f).blender = s.blender := rfl
@[simp] theorem State.mapSource_slide (s : State) (e : Nat) (f : SourceRecord → SourceRecord) :
    (s.mapSource e f).slide = s.slide := rfl
@[simp] theorem State.mapSource_builder (s : State) (e : Nat) (f : SourceRecord → SourceRecord) :
    (s.mapSource e f).builder = s.builder := rfl
@[simp] theorem State.mapSource_tables (s : State) (e : Nat) (f : SourceRecord → SourceRecord) :
    (s.mapSource e f).tables = s.tables := rfl
@[simp] theorem State.mapSource_capture (s : State) (e : Nat) (f : SourceRecord → SourceRecord) :
    (s.mapSource e f).capture = s.capture := rfl
@[simp] theorem State.mapSource_store (s : State) (e : Nat) (f : SourceRecord → SourceRecord) :
    (s.mapSource e f).store = s.store := rfl
@[simp] theorem State.mapSource_orders (s : State) (e : Nat) (f : SourceRecord → SourceRecord) :
    (s.mapSource e f).orders = s.orders := rfl
@[simp] theorem State.mapSource_sources (s : State) (e : Nat) (f : SourceRecord → SourceRecord) :
    (s.mapSource e f).sources = s.sources.map (fun x => if x.entry == e then f x else x) := rfl

/-! `State.withVref` -/

@[simp] theorem State.withVref_pending (s : State) (v : Nat) (t : U16) : (s.withVref v t).pending = s.pending := rfl
@[simp] theorem State.withVref_phase (s : State) (v : Nat) (t : U16) : (s.withVref v t).phase = s.phase := rfl
@[simp] theorem State.withVref_time (s : State) (v : Nat) (t : U16) : (s.withVref v t).time = s.time := rfl
@[simp] theorem State.withVref_ports (s : State) (v : Nat) (t : U16) : (s.withVref v t).ports = s.ports := rfl
@[simp] theorem State.withVref_sources (s : State) (v : Nat) (t : U16) : (s.withVref v t).sources = s.sources := rfl
@[simp] theorem State.withVref_control (s : State) (v : Nat) (t : U16) : (s.withVref v t).control = s.control := rfl
@[simp] theorem State.withVref_capability (s : State) (v : Nat) (t : U16) :
    (s.withVref v t).capability = s.capability := rfl
@[simp] theorem State.withVref_blender (s : State) (v : Nat) (t : U16) : (s.withVref v t).blender = s.blender := rfl
@[simp] theorem State.withVref_builder (s : State) (v : Nat) (t : U16) : (s.withVref v t).builder = s.builder := rfl
@[simp] theorem State.withVref_tables (s : State) (v : Nat) (t : U16) : (s.withVref v t).tables = s.tables := rfl
@[simp] theorem State.withVref_capture (s : State) (v : Nat) (t : U16) : (s.withVref v t).capture = s.capture := rfl
@[simp] theorem State.withVref_store (s : State) (v : Nat) (t : U16) : (s.withVref v t).store = s.store := rfl
@[simp] theorem State.withVref_orders (s : State) (v : Nat) (t : U16) : (s.withVref v t).orders = s.orders := rfl
@[simp] theorem State.withVref_vref (s : State) (v : Nat) (t : U16) : (s.withVref v t).slide.vref = v := rfl
@[simp] theorem State.withVref_lastSampleTime (s : State) (v : Nat) (t : U16) :
    (s.withVref v t).slide.lastSampleTime = some t := rfl
@[simp] theorem State.withVref_axles (s : State) (v : Nat) (t : U16) :
    (s.withVref v t).slide.axles = s.slide.axles := rfl
@[simp] theorem State.withVref_aEst (s : State) (v : Nat) (t : U16) :
    (s.withVref v t).slide.aEst = s.slide.aEst := rfl
@[simp] theorem State.withVref_recoveryDeadline (s : State) (v : Nat) (t : U16) :
    (s.withVref v t).slide.recoveryDeadline = s.slide.recoveryDeadline := rfl
@[simp] theorem State.withVref_attention (s : State) (v : Nat) (t : U16) :
    (s.withVref v t).slide.attention = s.slide.attention := rfl

/-! `State.setAttention` -/

@[simp] theorem State.setAttention_pending (s : State) (a : Axle) : (s.setAttention a).pending = s.pending := rfl
@[simp] theorem State.setAttention_phase (s : State) (a : Axle) : (s.setAttention a).phase = s.phase := rfl
@[simp] theorem State.setAttention_time (s : State) (a : Axle) : (s.setAttention a).time = s.time := rfl
@[simp] theorem State.setAttention_ports (s : State) (a : Axle) : (s.setAttention a).ports = s.ports := rfl
@[simp] theorem State.setAttention_sources (s : State) (a : Axle) : (s.setAttention a).sources = s.sources := rfl
@[simp] theorem State.setAttention_control (s : State) (a : Axle) : (s.setAttention a).control = s.control := rfl
@[simp] theorem State.setAttention_capability (s : State) (a : Axle) :
    (s.setAttention a).capability = s.capability := rfl
@[simp] theorem State.setAttention_blender (s : State) (a : Axle) : (s.setAttention a).blender = s.blender := rfl
@[simp] theorem State.setAttention_builder (s : State) (a : Axle) : (s.setAttention a).builder = s.builder := rfl
@[simp] theorem State.setAttention_tables (s : State) (a : Axle) : (s.setAttention a).tables = s.tables := rfl
@[simp] theorem State.setAttention_capture (s : State) (a : Axle) : (s.setAttention a).capture = s.capture := rfl
@[simp] theorem State.setAttention_store (s : State) (a : Axle) : (s.setAttention a).store = s.store := rfl
@[simp] theorem State.setAttention_orders (s : State) (a : Axle) : (s.setAttention a).orders = s.orders := rfl
@[simp] theorem State.setAttention_vref (s : State) (a : Axle) : (s.setAttention a).slide.vref = s.slide.vref := rfl
@[simp] theorem State.setAttention_lastSampleTime (s : State) (a : Axle) :
    (s.setAttention a).slide.lastSampleTime = s.slide.lastSampleTime := rfl
@[simp] theorem State.setAttention_axles (s : State) (a : Axle) :
    (s.setAttention a).slide.axles = s.slide.axles := rfl
@[simp] theorem State.setAttention_aEst (s : State) (a : Axle) : (s.setAttention a).slide.aEst = s.slide.aEst := rfl
@[simp] theorem State.setAttention_recoveryDeadline (s : State) (a : Axle) :
    (s.setAttention a).slide.recoveryDeadline = s.slide.recoveryDeadline := rfl
@[simp] theorem State.setAttention_attention (s : State) (a : Axle) :
    (s.setAttention a).slide.attention = s.slide.attention.set a true := rfl

/-! `State.restartRecovery` -/

@[simp] theorem State.restartRecovery_pending (s : State) :
    (s.restartRecovery).pending = s.pending := by rw [State.restartRecovery]
@[simp] theorem State.restartRecovery_phase (s : State) :
    (s.restartRecovery).phase = s.phase := by rw [State.restartRecovery]
@[simp] theorem State.restartRecovery_time (s : State) :
    (s.restartRecovery).time = s.time := by rw [State.restartRecovery]
@[simp] theorem State.restartRecovery_ports (s : State) :
    (s.restartRecovery).ports = s.ports := by rw [State.restartRecovery]
@[simp] theorem State.restartRecovery_sources (s : State) :
    (s.restartRecovery).sources = s.sources := by rw [State.restartRecovery]
@[simp] theorem State.restartRecovery_control (s : State) :
    (s.restartRecovery).control = s.control := by rw [State.restartRecovery]
@[simp] theorem State.restartRecovery_capability (s : State) :
    (s.restartRecovery).capability = s.capability := by rw [State.restartRecovery]
@[simp] theorem State.restartRecovery_blender (s : State) :
    (s.restartRecovery).blender = s.blender := by rw [State.restartRecovery]
@[simp] theorem State.restartRecovery_builder (s : State) :
    (s.restartRecovery).builder = s.builder := by rw [State.restartRecovery]
@[simp] theorem State.restartRecovery_tables (s : State) :
    (s.restartRecovery).tables = s.tables := by rw [State.restartRecovery]
@[simp] theorem State.restartRecovery_capture (s : State) :
    (s.restartRecovery).capture = s.capture := by rw [State.restartRecovery]
@[simp] theorem State.restartRecovery_store (s : State) :
    (s.restartRecovery).store = s.store := by rw [State.restartRecovery]
@[simp] theorem State.restartRecovery_orders (s : State) :
    (s.restartRecovery).orders = s.orders := by rw [State.restartRecovery]
@[simp] theorem State.restartRecovery_vref (s : State) :
    (s.restartRecovery).slide.vref = s.slide.vref := by rw [State.restartRecovery]
@[simp] theorem State.restartRecovery_lastSampleTime (s : State) :
    (s.restartRecovery).slide.lastSampleTime = s.slide.lastSampleTime := by rw [State.restartRecovery]
@[simp] theorem State.restartRecovery_axles (s : State) :
    (s.restartRecovery).slide.axles = s.slide.axles := by rw [State.restartRecovery]
@[simp] theorem State.restartRecovery_aEst (s : State) :
    (s.restartRecovery).slide.aEst = s.slide.aEst := by rw [State.restartRecovery]
@[simp] theorem State.restartRecovery_recoveryDeadline (s : State) :
    (s.restartRecovery).slide.recoveryDeadline = s.after 1000 := by rw [State.restartRecovery]
@[simp] theorem State.restartRecovery_attention (s : State) :
    (s.restartRecovery).slide.attention = s.slide.attention := by rw [State.restartRecovery]

end Sys2Proof.Machine
end

