-- ==== Sys2Proof/Laws/Flags.lean ====
section
/-!
SUPPORT. The fault register's flags: what raising and clearing one leaves of the others (R195).
-/

namespace Sys2Proof.Machine

theorem Flag.bit_lt (f : Flag) : f.bit < 17 := by cases f <;> decide

theorem Flag.bit_inj {f g : Flag} (h : f.bit = g.bit) : f = g := by
  cases f <;> cases g <;> first | rfl | exact absurd h (by decide)

theorem flagIn_raiseIn (r : BitVec 17) (f g : Flag) : flagIn (raiseIn r f) g = (flagIn r g || decide (f = g)) := by
  have h := g.bit_lt
  by_cases e : f = g
  · subst e; simp [flagIn, raiseIn, h]
  · have : f.bit ≠ g.bit := fun x => e (Flag.bit_inj x)
    simp [flagIn, raiseIn, BitVec.getLsbD_twoPow, e, this]

theorem flagIn_clearIn (r : BitVec 17) (f g : Flag) :
    flagIn (clearIn r f) g = (flagIn r g && !decide (f = g)) := by
  have h := g.bit_lt
  by_cases e : f = g
  · subst e; simp [flagIn, clearIn, h]
  · have : f.bit ≠ g.bit := fun x => e (Flag.bit_inj x)
    simp [flagIn, clearIn, BitVec.getLsbD_twoPow, e, this]
    intro x; exact h

@[simp] theorem State.flag_setFlag_self (s : State) (f : Flag) : (s.setFlag f).flag f = true := by
  simp [State.flag, flagIn_raiseIn]

theorem State.flag_setFlag (s : State) (f g : Flag) : (s.setFlag f).flag g = (s.flag g || decide (f = g)) := by
  simp [State.flag, flagIn_raiseIn]

theorem State.flag_setFlag_other (s : State) {f g : Flag} (h : f ≠ g) : (s.setFlag f).flag g = s.flag g := by
  simp [State.flag_setFlag, h]

theorem State.flag_setFlagIf (s : State) (c : Bool) (f g : Flag) :
    (s.setFlagIf c f).flag g = (s.flag g || (c && decide (f = g))) := by
  cases c <;> simp [State.setFlagIf, State.flag_setFlag]

theorem State.flag_dropFlag (s : State) (f g : Flag) :
    (s.dropFlag f).flag g = (s.flag g && !decide (f = g)) := by
  simp [State.flag, flagIn_clearIn]

/-- A flag depends on the order handler's register alone. -/
theorem State.flag_congr {s t : State} (h : t.orders.faults = s.orders.faults) (f : Flag) : t.flag f = s.flag f := by
  simp [State.flag, h]

end Sys2Proof.Machine
end

