-- ==== Sys2Proof/Laws/Reports.lean ====
section
/-!
SUPPORT. What the sending of telegrams and reports can do (R12 to R15, R197): one lemma for each operation. They
leave everything but the ports, the reply positions' marks, the status timer, what was last reported and QUEUE_DROP.
-/

namespace Sys2Proof.Machine

/-! ### Frames compose -/

theorem ReportOnly.refl (s : State) : ReportOnly s s := by constructor <;> intros <;> first | rfl | exact ⟨rfl, rfl⟩

theorem ReportOnly.trans {s t u : State} (h : ReportOnly s t) (k : ReportOnly t u) : ReportOnly s u := by
  constructor
  all_goals first
    | (intro f hf; rw [k.flags f hf, h.flags f hf])
    | (intro p; rw [(k.errors p).1, (k.errors p).2]; exact h.errors p)
    | (simp [h.pending, h.phase, h.time, h.sources, h.control, h.capability, h.blender, h.slide, h.builder, h.tables,
        h.capture, h.store, h.slot, h.restarts, h.restarting, h.nextPid, k.pending, k.phase, k.time, k.sources,
        k.control, k.capability, k.blender, k.slide, k.builder, k.tables, k.capture, k.store, k.slot, k.restarts,
        k.restarting, k.nextPid])

theorem RecorderOnly.refl (s : State) : RecorderOnly s s := by constructor <;> intros <;> rfl

theorem RecorderOnly.trans {s t u : State} (h : RecorderOnly s t) (k : RecorderOnly t u) : RecorderOnly s u := by
  constructor
  all_goals first
    | (intro f hf hg; rw [k.flags f hf hg, h.flags f hf hg])
    | (simp [h.pending, h.phase, h.time, h.ports, h.sources, h.control, h.capability, h.blender, h.slide, h.builder,
        h.tables, h.pages, h.retireMarks, h.slot, h.positions, h.statusDeadline, h.restarts, h.restarting, h.nextPid,
        h.reported, k.pending, k.phase, k.time, k.ports, k.sources, k.control, k.capability, k.blender, k.slide,
        k.builder, k.tables, k.pages, k.retireMarks, k.slot, k.positions, k.statusDeadline, k.restarts, k.restarting,
        k.nextPid, k.reported])

theorem OutputOnly.refl (s : State) : OutputOnly s s := by constructor <;> intros <;> first | rfl | exact ⟨rfl, rfl⟩

theorem OutputOnly.trans {s t u : State} (h : OutputOnly s t) (k : OutputOnly t u) : OutputOnly s u := by
  constructor
  all_goals first
    | (intro f h1 h2 h3; rw [k.flags f h1 h2 h3, h.flags f h1 h2 h3])
    | (intro p; rw [(k.errors p).1, (k.errors p).2]; exact h.errors p)
    | (simp [h.pending, h.phase, h.time, h.sources, h.control, h.capability, h.blender, h.slide, h.builder, h.tables,
        h.pages, h.retireMarks, h.slot, h.restarts, h.restarting, h.nextPid, k.pending, k.phase, k.time, k.sources,
        k.control, k.capability, k.blender, k.slide, k.builder, k.tables, k.pages, k.retireMarks, k.slot, k.restarts,
        k.restarting, k.nextPid])

theorem ReportOnly.output {s t : State} (h : ReportOnly s t) : OutputOnly s t := by
  constructor
  all_goals first
    | (intro f h1 _ _; exact h.flags f h1)
    | exact h.errors
    | (simp [h.pending, h.phase, h.time, h.sources, h.control, h.capability, h.blender, h.slide, h.builder, h.tables,
        h.store, h.slot, h.restarts, h.restarting, h.nextPid])

theorem RecorderOnly.output {s t : State} (h : RecorderOnly s t) : OutputOnly s t := by
  constructor
  all_goals first
    | (intro f _ h1 h2; exact h.flags f h1 h2)
    | (intro p; unfold State.port; rw [h.ports]; exact ⟨rfl, rfl⟩)
    | (simp [h.pending, h.phase, h.time, h.sources, h.control, h.capability, h.blender, h.slide, h.builder, h.tables,
        h.pages, h.retireMarks, h.slot, h.restarts, h.restarting, h.nextPid])

/-- Two port states agree in their counts of check errors and of unauthorised telegrams. -/
def PortState.sameErrors (q r : PortState) : Prop :=
  q.counts.checkErrors = r.counts.checkErrors ∧ q.counts.unauthorised = r.counts.unauthorised

theorem PortState.enterOwn_errors (q : PortState) (t : OwnTelegram) : (q.enterOwn t).sameErrors q := by
  unfold PortState.enterOwn
  split
  · exact ⟨rfl, rfl⟩
  · split <;> exact ⟨rfl, rfl⟩

theorem PortState.enterForwarded_errors (q : PortState) (t : Telegram) : (q.enterForwarded t).sameErrors q := by
  unfold PortState.enterForwarded
  split <;> exact ⟨rfl, rfl⟩

/-- A port written in place of one with the same counts of errors. -/
theorem PerPort.set_errors {v : PerPort PortState} {p : Port} {q : PortState} (h : q.sameErrors (v.get p)) (r : Port) :
    ((v.set p q).get r).sameErrors (v.get r) := by
  rw [PerPort.get_set]
  split
  · rename_i e; rw [← e]; exact h
  · exact ⟨rfl, rfl⟩

/-- An operation that writes ports and reply positions only, and sets no flag but QUEUE_DROP. -/
theorem reportOnly_of {s t : State} (o : Orders)
    (h : t = { s with ports := t.ports, orders := o }) (h1 : o.slot = s.orders.slot)
    (h2 : o.restarts = s.orders.restarts) (h3 : o.restarting = s.orders.restarting)
    (h4 : o.nextPid = s.orders.nextPid) (h5 : ∀ f, f ≠ .queueDrop → flagIn o.faults f = flagIn s.orders.faults f)
    (h6 : ∀ p, (t.ports.get p).sameErrors (s.ports.get p)) : ReportOnly s t := by
  rw [h]
  constructor
  all_goals first
    | (intro f hf; exact h5 f hf)
    | (intro p; exact h6 p)
    | rfl
    | (simp [h1, h2, h3, h4])

/-! ### Reply positions whose queued mark alone may be cleared -/

/-- Positions of which only the queued marks may have been cleared. -/
inductive Cleared : List Position → List Position → Prop where
  | nil : Cleared [] []
  | cons {p q : Position} {l m : List Position}
      (h : q = { p with queued := q.queued } ∧ (q.queued = true → p.queued = true)) (t : Cleared l m) :
      Cleared (p :: l) (q :: m)

theorem Cleared.refl (l : List Position) : Cleared l l := by
  induction l with
  | nil => exact .nil
  | cons p l ih => exact .cons ⟨rfl, id⟩ ih

theorem Cleared.trans {l m n : List Position} (h : Cleared l m) (k : Cleared m n) : Cleared l n := by
  induction h generalizing n with
  | nil => exact k
  | cons hp _ ih =>
    cases k with
    | cons kp kt => exact .cons ⟨by rw [kp.1, hp.1], fun x => hp.2 (kp.2 x)⟩ (ih kt)

theorem Cleared.update (pid : Nat) (b : Bool) (l : List Position) :
    Cleared l (updatePosition pid (fun p => { p with queued := if b then false else p.queued }) l) := by
  induction l with
  | nil => exact .nil
  | cons p l ih =>
    refine .cons ?_ ih
    by_cases h : (p.pid == pid) = true <;> cases b <;> simp [h]

/-- A position found by number is found again, with its queued mark cleared at most. -/
theorem Cleared.find {l m : List Position} (h : Cleared l m) {pid : Nat} {p : Position}
    (hp : l.find? (fun x => x.pid == pid) = some p) :
    ∃ q, m.find? (fun x => x.pid == pid) = some q ∧ q = { p with queued := q.queued }
      ∧ (q.queued = true → p.queued = true) := by
  induction h with
  | nil => cases hp
  | @cons a b l m hab _ ih =>
    have e : b.pid = a.pid := by rw [hab.1]
    by_cases c : (a.pid == pid) = true
    · simp only [List.find?_cons, c] at hp
      cases hp
      exact ⟨b, by simp [e, c], hab.1, hab.2⟩
    · simp only [List.find?_cons, c] at hp
      obtain ⟨q, h1, h2⟩ := ih hp
      exact ⟨q, by simp [e, c, h1], h2⟩

theorem Cleared.forall {l m : List Position} (h : Cleared l m) {P : Position → Prop}
    (hP : ∀ p b, P p → P { p with queued := b }) (hl : ∀ p ∈ l, P p) : ∀ p ∈ m, P p := by
  induction h with
  | nil => intro p hp; cases hp
  | @cons a b l m hab _ ih =>
    intro p hp
    rcases List.mem_cons.mp hp with e | e
    · rw [e, hab.1]; exact hP _ _ (hl a (by simp))
    · exact ih (fun p hp => hl p (by simp [hp])) p e

theorem Cleared.noHeld {s t : State} (h : Cleared s.orders.positions t.orders.positions) (hs : s.noHeld) : t.noHeld :=
  h.forall (P := fun p => p.held = none) (fun _ _ h => h) hs

theorem Cleared.quiet {s t : State} (h : Cleared s.orders.positions t.orders.positions) (hs : s.quiet) : t.quiet :=
  h.forall (P := fun p => p.held = none ∧ p.deferred = none ∧ p.departing = false) (fun _ _ h => h) hs

theorem OwnTelegram.clears_cleared (t : OwnTelegram) (l : List Position) : Cleared l (t.clears l) := by
  cases t with
  | brakeCmd _ => exact Cleared.refl l
  | partStatus _ => exact Cleared.refl l
  | reply f => exact Cleared.update f.pid f.isLast l

/-! ### Transmitters and queues -/

/-- All that the start of a transmitter can do: nothing, or take the oldest own, or the oldest forwarded telegram. -/
theorem State.startTx_cases (p : Port) (s : State) :
    s.startTx p = s
      ∨ (s.phase = .running ∧ (s.port p).tx = none ∧ ∃ t rest, (s.port p).own = t :: rest ∧ s.startTx p =
          { s with
            ports := s.ports.set p
              { (s.port p).advance t with own := rest ++ t.nextFragment, tx := some (s.beginOwn (s.port p) t) }
            orders := { s.orders with positions := t.clears s.orders.positions } })
      ∨ (s.phase = .running ∧ (s.port p).tx = none ∧ (s.port p).own = [] ∧ ∃ f rest, (s.port p).fwd = f :: rest
          ∧ s.startTx p = s.withPort p { s.port p with fwd := rest, tx := some (.forwarded f) }) := by
  unfold State.startTx
  cases hph : s.phase <;> simp only
  · exact .inl trivial
  · exact .inl trivial
  cases htx : (s.port p).tx <;> simp only
  · cases ho : (s.port p).own with
    | cons t rest => exact .inr (.inl ⟨trivial, trivial, t, rest, rfl, rfl⟩)
    | nil =>
      cases hf : (s.port p).fwd with
      | nil => exact .inl rfl
      | cons f rest => exact .inr (.inr ⟨trivial, trivial, rfl, f, rest, rfl, rfl⟩)
  · exact .inl trivial

theorem State.startTx_reportOnly (p : Port) (s : State) : ReportOnly s (s.startTx p) := by
  rcases State.startTx_cases p s with h | ⟨_, _, t, rest, _, h⟩ | ⟨_, _, _, f, rest, _, h⟩
  · rw [h]; exact .refl s
  · rw [h]; exact reportOnly_of { s.orders with positions := t.clears s.orders.positions } rfl rfl rfl rfl rfl
      (fun _ _ => rfl) (PerPort.set_errors (by cases t <;> exact ⟨rfl, rfl⟩))
  · rw [h]; exact reportOnly_of s.orders rfl rfl rfl rfl rfl (fun _ _ => rfl) (PerPort.set_errors ⟨rfl, rfl⟩)

theorem State.startTx_cleared (p : Port) (s : State) : Cleared s.orders.positions (s.startTx p).orders.positions := by
  rcases State.startTx_cases p s with h | ⟨_, _, t, rest, _, h⟩ | ⟨_, _, _, f, rest, _, h⟩
  · rw [h]; exact .refl _
  · rw [h]; exact t.clears_cleared _
  · rw [h]; exact .refl _

theorem State.startTx_statusDeadline (p : Port) (s : State) :
    (s.startTx p).orders.statusDeadline = s.orders.statusDeadline ∧ (s.startTx p).orders.reported = s.orders.reported
      ∧ (s.startTx p).orders.faults = s.orders.faults := by
  rcases State.startTx_cases p s with h | ⟨_, _, t, rest, _, h⟩ | ⟨_, _, _, f, rest, _, h⟩ <;> rw [h] <;>
    exact ⟨rfl, rfl, rfl⟩

/-- A port's own telegrams entering leave the forwarded ones but for the newest, and its transmitter. -/
theorem State.enqueueOwn_reportOnly (p : Port) (t : OwnTelegram) (s : State) : ReportOnly s (s.enqueueOwn p t) := by
  refine ReportOnly.trans ?_ (State.startTx_reportOnly p _)
  refine reportOnly_of ((s.withPort p ((s.port p).enterOwn t)).setFlagIf ((s.port p).ownDrops t) .queueDrop).orders
    ?_ ?_ ?_ ?_ ?_ ?_ ?_
  · cases (s.port p).ownDrops t <;> rfl
  · simp
  · simp
  · simp
  · simp
  · intro f hf
    have := State.flag_setFlagIf (s.withPort p ((s.port p).enterOwn t)) ((s.port p).ownDrops t) .queueDrop f
    simp only [State.flag] at this
    rw [this]
    simp [Ne.symm hf]
  · simp only [State.setFlagIf_ports, State.withPort_ports]
    exact PerPort.set_errors (PortState.enterOwn_errors _ _)

theorem State.enqueueOwn_cleared (p : Port) (t : OwnTelegram) (s : State) :
    Cleared s.orders.positions (s.enqueueOwn p t).orders.positions := by
  refine Cleared.trans ?_ (State.startTx_cleared p _)
  simp only [State.setFlagIf_positions, State.withPort_orders]
  exact .refl _

theorem State.forward_reportOnly (p : Port) (t : Telegram) (s : State) : ReportOnly s (s.forward p t) := by
  refine ReportOnly.trans ?_ (State.startTx_reportOnly p _)
  refine reportOnly_of
    ((s.withPort p ((s.port p).enterForwarded t)).setFlagIf (s.port p).forwardDrops .queueDrop).orders ?_ ?_ ?_ ?_ ?_ ?_
    ?_
  · cases (s.port p).forwardDrops <;> rfl
  · simp
  · simp
  · simp
  · simp
  · intro f hf
    have := State.flag_setFlagIf (s.withPort p ((s.port p).enterForwarded t)) (s.port p).forwardDrops .queueDrop f
    simp only [State.flag] at this
    rw [this]
    simp [Ne.symm hf]
  · simp only [State.setFlagIf_ports, State.withPort_ports]
    exact PerPort.set_errors (PortState.enterForwarded_errors _ _)

theorem State.forward_cleared (p : Port) (t : Telegram) (s : State) :
    Cleared s.orders.positions (s.forward p t).orders.positions := by
  refine Cleared.trans ?_ (State.startTx_cleared p _)
  simp only [State.setFlagIf_positions, State.withPort_orders]
  exact .refl _

/-! ### PART_STATUS and its reports -/

theorem State.emitStatus_reportOnly (s : State) : ReportOnly s s.emitStatus := by
  refine (State.enqueueOwn_reportOnly .cab (.partStatus s.status) s).trans ?_
  exact reportOnly_of _ rfl rfl rfl rfl rfl (fun _ _ => rfl) (fun _ => ⟨rfl, rfl⟩)

theorem State.emitStatus_cleared (s : State) : Cleared s.orders.positions s.emitStatus.orders.positions :=
  State.enqueueOwn_cleared .cab (.partStatus s.status) s

theorem State.noteReport_reportOnly (s : State) : ReportOnly s s.noteReport :=
  reportOnly_of _ rfl rfl rfl rfl rfl (fun _ _ => rfl) (fun _ => ⟨rfl, rfl⟩)

/-- A report is nothing, one PART_STATUS, or two. -/
theorem State.report_cases (s : State) :
    s.report = s ∨ s.report = s.noteReport.emitStatus
      ∨ s.report = s.noteReport.emitStatus.noteReport.emitStatus := by
  unfold State.report
  split
  · exact .inl rfl
  · simp only
    split
    · exact .inr (.inl rfl)
    · exact .inr (.inr rfl)

theorem State.report_reportOnly (s : State) : ReportOnly s s.report := by
  have h1 := s.noteReport_reportOnly.trans s.noteReport.emitStatus_reportOnly
  rcases s.report_cases with h | h | h <;> rw [h]
  · exact .refl s
  · exact h1
  · exact (h1.trans (State.noteReport_reportOnly _)).trans (State.emitStatus_reportOnly _)

theorem State.report_cleared (s : State) : Cleared s.orders.positions s.report.orders.positions := by
  have h1 : Cleared s.orders.positions s.noteReport.emitStatus.orders.positions := s.noteReport.emitStatus_cleared
  rcases s.report_cases with h | h | h <;> rw [h]
  · exact .refl _
  · exact h1
  · exact h1.trans (State.emitStatus_cleared s.noteReport.emitStatus.noteReport)

/-! ### A reply handed over stays handed over -/

theorem State.port_withPort_self (s : State) (p : Port) (q : PortState) : (s.withPort p q).port p = q := by
  simp [State.port]

theorem State.port_withPort (s : State) (p r : Port) (q : PortState) :
    (s.withPort p q).port r = if p = r then q else s.port r := by
  simp [State.port, PerPort.get_set]

theorem State.replied_congr {s t : State} {port : Port} {pid : Nat} {r : Reply} (h : t.port port = s.port port)
    (k : s.replied port pid r) : t.replied port pid r := by
  simpa [State.replied, h] using k

theorem replaceWaiting_any (t : OwnTelegram) (pid : Nat) (r : Reply) (l : List OwnTelegram)
    (h : l.any (startsReply pid r) = true) : (replaceWaiting t l).any (startsReply pid r) = true := by
  induction l with
  | nil => exact h
  | cons x xs ih =>
    unfold replaceWaiting
    split
    · rename_i hs
      have hx : startsReply pid r x = false := by
        cases t <;> cases x <;> simp_all [OwnTelegram.supersedes, startsReply]
      simp only [List.any_cons, hx, Bool.false_or] at h
      simp [h]
    · simp only [List.any_cons, Bool.or_eq_true] at h ⊢
      exact h.imp id ih

theorem PortState.enterOwn_tx (q : PortState) (t : OwnTelegram) : (q.enterOwn t).tx = q.tx := by
  unfold PortState.enterOwn
  split
  · rfl
  · split <;> rfl

theorem PortState.enterOwn_any (q : PortState) (t : OwnTelegram) (pid : Nat) (r : Reply)
    (h : q.own.any (startsReply pid r) = true) : (q.enterOwn t).own.any (startsReply pid r) = true := by
  unfold PortState.enterOwn
  split
  · exact replaceWaiting_any t pid r _ h
  · split <;> simp [List.any_append, h]

/-- A reply that enters a queue waits in it: nothing supersedes it. -/
theorem PortState.enterOwn_reply (q : PortState) (pid : Nat) (r : Reply) :
    (q.enterOwn (.reply ⟨pid, r, 0⟩)).own.any (startsReply pid r) = true := by
  have h : q.own.any (OwnTelegram.supersedes (.reply ⟨pid, r, 0⟩)) = false := by
    rw [List.any_eq_false]; intro x _; cases x <;> simp [OwnTelegram.supersedes]
  unfold PortState.enterOwn
  rw [h]
  simp only [Bool.false_eq_true, if_false]
  split <;> simp [List.any_append, startsReply]

theorem State.replied_startTx {s : State} {port : Port} {pid : Nat} {r : Reply} (p : Port)
    (k : s.replied port pid r) : (s.startTx p).replied port pid r := by
  rcases State.startTx_cases p s with h | ⟨_, htx, t, rest, ho, h⟩ | ⟨_, htx, ho, f, rest, _, h⟩
  · rw [h]; exact k
  · rw [h]
    by_cases e : p = port
    · subst e
      simp only [State.replied, htx, ho, List.any_cons, Option.any_none, Bool.or_eq_true, Bool.false_eq_true, or_false]
        at k
      simp only [State.replied, State.port, PerPort.get_set_self]
      rcases k with k | k
      · right
        cases t with
        | reply f => simpa [State.beginOwn, Transmission.carriesOwn] using k
        | brakeCmd _ => simp [startsReply] at k
        | partStatus _ => simp [startsReply] at k
      · left; simp [List.any_append, k]
    · refine State.replied_congr ?_ k
      simp [State.port, PerPort.get_set, e]
  · rw [h]
    by_cases e : p = port
    · subst e
      simp [State.replied, htx, ho] at k
    · refine State.replied_congr ?_ k
      simp [State.port, PerPort.get_set, e]

theorem State.replied_enqueueOwn {s : State} {port : Port} {pid : Nat} {r : Reply} (p : Port) (t : OwnTelegram)
    (k : s.replied port pid r) : (s.enqueueOwn p t).replied port pid r := by
  refine State.replied_startTx p ?_
  have hp : ∀ c, ((s.withPort p ((s.port p).enterOwn t)).setFlagIf c .queueDrop).port port
      = (s.withPort p ((s.port p).enterOwn t)).port port := by
    intro c; simp [State.port]
  refine State.replied_congr (hp _) ?_
  by_cases e : p = port
  · subst e
    simp only [State.replied, State.port_withPort_self, PortState.enterOwn_tx]
    exact k.imp (PortState.enterOwn_any _ _ _ _) id
  · exact State.replied_congr (by simp [State.port_withPort, e]) k

theorem State.replied_report {s : State} {port : Port} {pid : Nat} {r : Reply} (k : s.replied port pid r) :
    s.report.replied port pid r := by
  have h1 : s.noteReport.emitStatus.replied port pid r :=
    State.replied_congr (s := s.noteReport.enqueueOwn .cab (.partStatus s.noteReport.status)) rfl
      (State.replied_enqueueOwn .cab _ (State.replied_congr rfl k))
  rcases s.report_cases with h | h | h <;> rw [h]
  · exact k
  · exact h1
  · exact State.replied_congr (s := s.noteReport.emitStatus.noteReport.enqueueOwn .cab _) rfl
      (State.replied_enqueueOwn .cab _ (State.replied_congr rfl h1))

end Sys2Proof.Machine
end

