-- ==== Sys2Proof/Laws/Orders.lean ====
section
/-!
SUPPORT. The order handler's operations (R188 to R193): handing over a reply, the end of an event, and an order of a
CLEAR source answered. `order_answered` is the lemma by which a statement about a short order reaches `exec`.
-/

namespace Sys2Proof.Machine

/-! ### Handing over (R190) -/

theorem State.handOver_cases (pid : Nat) (r : Reply) (s : State) :
    s.handOver pid r = s
      ∨ (∃ p, s.position pid = some p ∧ p.queued = true
          ∧ s.handOver pid r = s.mapPosition pid (fun p => { p with deferred := some r }))
      ∨ (∃ p, s.position pid = some p ∧ p.queued = false ∧ s.handOver pid r
          = (s.mapPosition pid (fun p => { p with queued := true })).enqueueOwn p.key.port (.reply ⟨pid, r, 0⟩)) := by
  unfold State.handOver
  cases h : s.position pid with
  | none => exact .inl rfl
  | some p =>
    cases hq : p.queued
    · exact .inr (.inr ⟨p, rfl, hq, by simp [hq]⟩)
    · exact .inr (.inl ⟨p, rfl, hq, by simp [hq]⟩)

theorem State.mapPosition_reportOnly (pid : Nat) (f : Position → Position) (s : State) :
    ReportOnly s (s.mapPosition pid f) :=
  reportOnly_of _ rfl rfl rfl rfl rfl (fun _ _ => rfl) (fun _ => ⟨rfl, rfl⟩)

theorem State.handOver_reportOnly (pid : Nat) (r : Reply) (s : State) : ReportOnly s (s.handOver pid r) := by
  rcases s.handOver_cases pid r with h | ⟨p, _, _, h⟩ | ⟨p, _, _, h⟩ <;> rw [h]
  · exact .refl s
  · exact State.mapPosition_reportOnly _ _ s
  · exact (State.mapPosition_reportOnly _ _ s).trans (State.enqueueOwn_reportOnly _ _ _)

theorem updatePosition_forall {P : Position → Prop} (pid : Nat) (f : Position → Position) {l : List Position}
    (hf : ∀ p, P p → P (f p)) (hl : ∀ p ∈ l, P p) : ∀ p ∈ updatePosition pid f l, P p := by
  intro p hp
  simp only [updatePosition, List.mem_map] at hp
  obtain ⟨q, hq, e⟩ := hp
  split at e
  · rw [← e]; exact hf q (hl q hq)
  · rw [← e]; exact hl q hq

theorem State.handOver_noHeld {s : State} (pid : Nat) (r : Reply) (h : s.noHeld) : (s.handOver pid r).noHeld := by
  rcases s.handOver_cases pid r with e | ⟨p, _, _, e⟩ | ⟨p, _, _, e⟩ <;> rw [e]
  · exact h
  · exact updatePosition_forall (P := fun p => p.held = none) pid _ (fun _ x => x) h
  · refine Cleared.noHeld (State.enqueueOwn_cleared _ _ _) ?_
    exact updatePosition_forall (P := fun p => p.held = none) pid _ (fun _ x => x) h

theorem Cleared.unmarked {l m : List Position} (h : Cleared l m) :
    m.map Position.unmarked = l.map Position.unmarked := by
  induction h with
  | nil => rfl
  | cons hp _ ih =>
    rw [List.map_cons, List.map_cons, ih, hp.1]
    rfl

theorem updatePosition_unmarked (pid : Nat) (b : Bool) (l : List Position) :
    (updatePosition pid (fun p => { p with queued := b }) l).map Position.unmarked = l.map Position.unmarked := by
  simp only [updatePosition, List.map_map]
  refine List.map_congr_left ?_
  intro p _
  simp only [Function.comp_apply]
  split <;> rfl

theorem SamePositions.trans {s t u : State} (h : SamePositions s t) (k : SamePositions t u) : SamePositions s u :=
  Eq.trans k h

theorem State.report_positions (s : State) : SamePositions s s.report := s.report_cleared.unmarked

/-- A reply handed over to a CLEAR position is placed in the queue of its port. -/
theorem State.handOver_clear {s : State} {pid : Nat} {p : Position} (r : Reply) (hp : s.position pid = some p)
    (hc : p.queued = false) (hq : s.quiet) :
    SamePositions s (s.handOver pid r) ∧ (s.handOver pid r).quiet ∧ (s.handOver pid r).replied p.key.port pid r := by
  have e : s.handOver pid r
      = (s.mapPosition pid (fun p => { p with queued := true })).enqueueOwn p.key.port (.reply ⟨pid, r, 0⟩) := by
    unfold State.handOver; rw [hp]; simp [hc]
  rw [e]
  refine ⟨?_, ?_, ?_⟩
  · exact Eq.trans (State.enqueueOwn_cleared _ _ _).unmarked (updatePosition_unmarked pid true s.orders.positions)
  · refine Cleared.quiet (State.enqueueOwn_cleared _ _ _) ?_
    exact updatePosition_forall (P := fun p => p.held = none ∧ p.deferred = none ∧ p.departing = false) pid _
      (fun _ x => x) hq
  · refine State.replied_startTx _ (Or.inl ?_)
    have : ∀ (t : State) c, (t.setFlagIf c .queueDrop).port p.key.port = t.port p.key.port := by
      intro t c; simp [State.port]
    rw [this, State.port_withPort_self]
    exact PortState.enterOwn_reply _ _ _

/-- The long order's answer: the slot is freed, and a reply handed over. -/
theorem State.answerLong_reportOnly (res : Result) (d : ReplyData) (s : State) :
    ReportOnly { s with orders := { s.orders with slot := none } } (s.answerLong res d) := by
  unfold State.answerLong
  cases h : s.orders.slot with
  | none =>
    have : { s with orders := { s.orders with slot := none } } = s := by
      rw [← h]
    rw [this]; exact .refl s
  | some l => exact State.handOver_reportOnly _ _ _

theorem State.answerLong_noHeld {s : State} (res : Result) (d : ReplyData) (h : s.noHeld) :
    (s.answerLong res d).noHeld := by
  unfold State.answerLong
  cases s.orders.slot with
  | none => exact h
  | some l => exact State.handOver_noHeld (s := { s with orders := { s.orders with slot := none } }) _ _ h

/-! ### The telegrams of a reply (R191) -/

theorem ReplyData.bytes_length (d : ReplyData) : d.bytes.length = d.openLength + d.given.length := by
  simp [ReplyData.bytes]

/-- A reply that one telegram holds has at most its 61 bytes. -/
theorem ReplyData.bytes_fitsOne {d : ReplyData} (h : d.fitsOne = true) : d.bytes.length ≤ 61 := by
  have hg : d.given.length ≤ 61 := by
    cases d <;> simp [ReplyData.fitsOne, ReplyData.given] at h ⊢; omega
  have ho : d.openLength ≤ 61 - d.given.length := by
    unfold ReplyData.openLength
    split
    · exact Nat.zero_le _
    · exact Nat.zero_le _
    · simp [ReplyData.fitsOne] at h
    · rw [ReplyData.room, if_pos h]; exact Nat.min_le_right _ _
  rw [ReplyData.bytes_length]; omega

/-- A reply takes as many telegrams as its bytes need, and one when it has none. -/
theorem ReplyData.fragments_eq (d : ReplyData) : d.fragments = max 1 ((d.bytes.length + 60) / 61) := by
  unfold ReplyData.fragments
  split
  · have := ReplyData.bytes_fitsOne ‹_›; omega
  · rw [ReplyData.bytes_length]

/-- The telegrams of a reply from the first on carry its data from the first byte on. -/
theorem ReplyFragment.payload_flatten (pid : Nat) (r : Reply) (n : Nat) :
    ((List.range n).map (fun i => (ReplyFragment.payload ⟨pid, r, i⟩).drop 3)).flatten = r.data.bytes.take (61 * n) := by
  induction n with
  | zero => simp
  | succ n ih =>
    rw [List.range_succ, List.map_append, List.flatten_append, ih, Nat.mul_succ, List.take_add]
    simp [ReplyFragment.payload]

/-! ### The end of an event -/

theorem State.settleStep_quiet {s : State} (h : s.quiet) : s.settleStep = none := by
  have h1 : s.orders.positions.find? Position.canPlace = none := by
    rw [List.find?_eq_none]; intro p hp; simp [Position.canPlace, (h p hp).2.1]
  have h2 : s.orders.positions.find? s.canTake = none := by
    rw [List.find?_eq_none]; intro p hp; simp [State.canTake, (h p hp).1]
  have h3 : s.orders.positions.find? s.canEnd = none := by
    rw [List.find?_eq_none]; intro p hp; simp [State.canEnd, (h p hp).2.2]
  simp [State.settleStep, h1, h2, h3]

theorem State.report_quiet {s : State} (h : s.quiet) : s.report.quiet := Cleared.quiet s.report_cleared h
theorem State.report_noHeld {s : State} (h : s.noHeld) : s.report.noHeld := Cleared.noHeld s.report_cleared h

/-- At the end of an event that leaves the reply positions quiet only the reports are made. -/
theorem State.finish_quiet {s : State} (h : s.quiet) : s.finish = s.report := by
  unfold State.finish State.settleLoop
  rw [State.settleStep_quiet (State.report_quiet h)]

theorem State.placeDeferred_noHeld {s : State} (p : Position) (h : s.noHeld) :
    (s.placeDeferred p).noHeld ∧ ReportOnly s (s.placeDeferred p) := by
  unfold State.placeDeferred
  cases p.deferred with
  | none => exact ⟨h, .refl s⟩
  | some r =>
    have h1 : (s.mapPosition p.pid (fun x => { x with deferred := none })).noHeld :=
      updatePosition_forall (P := fun p => p.held = none) _ _ (fun _ x => x) h
    exact ⟨State.handOver_noHeld _ _ h1, (State.mapPosition_reportOnly _ _ s).trans (State.handOver_reportOnly _ _ _)⟩

theorem State.endDeparting_noHeld {s : State} (p : Position) (h : s.noHeld) :
    (s.endDeparting p).noHeld ∧ ReportOnly s (s.endDeparting p) := by
  refine ⟨?_, reportOnly_of _ rfl rfl rfl rfl rfl (fun _ _ => rfl) (fun _ => ⟨rfl, rfl⟩)⟩
  have hl : ∀ q ∈ s.orders.positions.filter (fun x => x.pid != p.pid), q.held = none :=
    fun q hq => h q (List.mem_filter.mp hq).1
  intro q hq
  simp only [State.endDeparting] at hq
  split at hq
  · obtain ⟨x, hx, e⟩ := List.mem_map.mp hq
    rw [← e]; exact hl x hx
  · exact hl q hq

/-- With no order held, whatever becomes possible at the reply positions is a matter of replies and positions. -/
theorem State.settleStep_noHeld {s t : State} (h : s.noHeld) (e : s.settleStep = some t) :
    t.noHeld ∧ ReportOnly s t := by
  unfold State.settleStep at e
  split at e
  · cases e; exact State.placeDeferred_noHeld _ h
  · split at e
    · rename_i p hp
      have := List.find?_some hp
      simp [State.canTake, h p (List.mem_of_find?_eq_some hp)] at this
    · simp only [Option.map_eq_some_iff] at e
      obtain ⟨p, _, rfl⟩ := e
      exact State.endDeparting_noHeld p h

theorem State.settleLoop_noHeld (n : Nat) {s : State} (h : s.noHeld) :
    (s.settleLoop n).noHeld ∧ ReportOnly s (s.settleLoop n) := by
  induction n generalizing s with
  | zero => exact ⟨h, .refl s⟩
  | succ n ih =>
    unfold State.settleLoop
    split
    · exact ⟨h, .refl s⟩
    · rename_i t ht
      obtain ⟨h1, h2⟩ := State.settleStep_noHeld h ht
      obtain ⟨h3, h4⟩ := ih (State.report_noHeld h1)
      exact ⟨h3, h2.trans (t.report_reportOnly.trans h4)⟩

/-- At the end of an event that leaves no order held, only telegrams and reports are sent. -/
theorem State.finish_noHeld {s : State} (h : s.noHeld) : s.finish.noHeld ∧ ReportOnly s s.finish := by
  obtain ⟨h1, h2⟩ := State.settleLoop_noHeld 64 (State.report_noHeld h)
  exact ⟨h1, s.report_reportOnly.trans h2⟩

theorem State.quiet.noHeld {s : State} (h : s.quiet) : s.noHeld := fun p hp => (h p hp).1

/-- An event of a running part whose work leaves no order held. -/
theorem State.whenRunning_noHeld {s : State} {f : State → State} (hr : s.phase = .running) (h : (f s).noHeld) :
    ReportOnly (f s) (s.whenRunning f) := by
  simp only [State.whenRunning, hr, if_true]
  exact (State.finish_noHeld h).2

/-- The end of an event that leaves no order held. -/
theorem State.finish_reported {s : State} (h : s.noHeld) : Reported s s.finish :=
  ⟨(State.finish_noHeld h).2, fun q => State.finish_quiet q⟩

theorem State.whenRunning_reported {s : State} {f : State → State} (hr : s.phase = .running) (h : (f s).noHeld) :
    Reported (f s) (s.whenRunning f) := by
  simp only [State.whenRunning, hr, if_true]
  exact State.finish_reported h

/-- With nothing to report there is no report. -/
theorem State.report_settled {s : State} (h : s.orders.reported = some s.statusKey) : s.report = s := by
  unfold State.report
  rw [h]; simp

/-- The end of an event in which a reply was handed over to a CLEAR position. -/
theorem State.handOver_finish {s : State} {pid : Nat} {p : Position} (r : Reply) (hp : s.position pid = some p)
    (hn : p.pid = pid) (hc : p.queued = false) (hq : s.quiet) : Handed p r s (s.handOver pid r).finish := by
  obtain ⟨k0, k1, k2⟩ := State.handOver_clear r hp hc hq
  rw [State.finish_quiet k1, ← hn] at *
  exact ⟨(State.handOver_reportOnly _ _ _).trans (State.report_reportOnly _), k0.trans (State.report_positions _),
    State.report_quiet k1, State.replied_report k2, rfl⟩

/-! ### An order of a CLEAR source -/

theorem Ready.not_held {s : State} {o : Origin} {p : Position} (h : Ready s o p) : s.holdsOrders p = false := by
  have h1 : s.anyDeparting = false := by
    simp only [State.anyDeparting, List.any_eq_false]
    intro q hq; simp [(h.quiet q hq).2.2]
  simp [State.holdsOrders, h.clear, h1]

/-- A ready order is taken at once. -/
theorem Ready.taken {s : State} {o : Origin} {p : Position} (h : Ready s o p) (code : U8) (args : Bytes) :
    s.orderArrives o.entry.val o.tag code args = s.takeOrder p.pid o.tag code args := by
  simp [State.orderArrives, h.taking, h.entry, h.not_held]

theorem OrderName.ofCode_code (n : OrderName) : OrderName.ofCode n.code = some n := by cases n <;> decide

/-- A short order of a CLEAR source is answered: its owner's answer is handed over, and beyond the owner's effect
only telegrams and reports follow. The owner must leave the source's position CLEAR and the positions quiet. -/
theorem order_answered {s : State} {o : Origin} {p : Position} (h : Ready s o p) (n : OrderName) (args : Bytes)
    (hs : n.isLong = false) (ha : n.argBytes ≤ args.length) {a : Answer} (he : s.shortOrder n args = a)
    (hp : a.state.position p.pid = some p) (hq : a.state.quiet) :
    Answered o p n.code a.res a.data a.state (s.order o n args) := by
  subst he
  have e : s.order o n args = (s.answerShort p.pid o.tag n args).finish := by
    simp only [State.order, State.whenRunning, h.running, if_true, h.taken, State.takeOrder, n.ofCode_code,
      Nat.not_lt.mpr ha, if_false, hs, Bool.false_eq_true]
  obtain ⟨p', h1, h2, h3⟩ := (State.report_cleared _).find hp
  have hc' : p'.queued = false := by
    cases hx : p'.queued
    · rfl
    · have := h3 hx; rw [h.clear] at this; cases this
  have hkey : p'.key = p.key := by rw [h2]
  obtain ⟨k0, k1, k2⟩ := State.handOver_clear ⟨o.tag, n.code, (s.shortOrder n args).res, (s.shortOrder n args).data⟩ h1 hc'
    (State.report_quiet hq)
  rw [hkey] at k2
  rw [e, State.finish_quiet (s := s.answerShort p.pid o.tag n args) k1]
  refine ⟨?_, ((State.report_positions _).trans k0).trans (State.report_positions _), State.report_quiet k1,
    State.replied_report k2, rfl⟩
  exact ((State.report_reportOnly _).trans (State.handOver_reportOnly _ _ _)).trans (State.report_reportOnly _)

/-- The same, for an owner that leaves the reply positions as they are. -/
theorem order_answered_kept {s : State} {o : Origin} {p : Position} (h : Ready s o p) (n : OrderName) (args : Bytes)
    (hs : n.isLong = false) (ha : n.argBytes ≤ args.length) {a : Answer} (he : s.shortOrder n args = a)
    (hp : a.state.orders.positions = s.orders.positions) :
    Answered o p n.code a.res a.data a.state (s.order o n args) := by
  refine order_answered h n args hs ha he ?_ ?_
  · simpa [State.position, hp] using h.number
  · simpa [State.quiet, hp] using h.quiet

/-- A long order of a CLEAR source with the slot free takes the slot and goes to its owner. -/
theorem order_takes_slot {s : State} {o : Origin} {p : Position} (h : Ready s o p) (n : OrderName) (args : Bytes)
    (hs : n.isLong = true) (ha : n.argBytes ≤ args.length) (hf : s.orders.slot = none) :
    s.order o n args
      = (State.longOrder n args p.pid o.tag
          { s with orders := { s.orders with slot := some ⟨n, o.tag, p.pid⟩ } }).finish := by
  simp only [State.order, State.whenRunning, h.running, if_true, h.taken, State.takeOrder, n.ofCode_code,
    Nat.not_lt.mpr ha, if_false, hs, State.askSlot, hf]

end Sys2Proof.Machine
end

