-- ==== Sys2Proof/Laws/Memory.lean ====
section
/-!
SUPPORT. The record store's memory: reads after writes, and that every operation on it keeps its canonical form.
-/

namespace Sys2Proof.Machine

/-- Keys of a canonical list all lie above a bound. -/
def above (n : Nat) (l : List (Nat × Bytes)) : Prop := ∀ x ∈ l, n < x.1

theorem pagesWf_cons {k : Nat} {b : Bytes} {l : List (Nat × Bytes)} :
    pagesWf ((k, b) :: l) = true ↔ isErased b = false ∧ above k l ∧ pagesWf l = true := by
  simp [pagesWf, above, and_assoc]

theorem above_writePage {m n : Nat} {b : Bytes} {l : List (Nat × Bytes)} (hm : m < n) (h : above m l) :
    above m (writePage n b l) := by
  induction l with
  | nil => intro x hx; unfold writePage at hx; split at hx <;> simp_all
  | cons y rest ih =>
    obtain ⟨k, c⟩ := y
    have hk : m < k := h (k, c) (by simp)
    have hr : above m rest := fun x hx => h x (by simp [hx])
    intro x hx
    unfold writePage at hx
    split at hx
    · split at hx
      · exact h x hx
      · rcases List.mem_cons.mp hx with e | e
        · rw [e]; exact hm
        · exact h x e
    · split at hx
      · split at hx
        · exact hr x hx
        · rcases List.mem_cons.mp hx with e | e
          · rw [e]; exact hm
          · exact hr x e
      · rcases List.mem_cons.mp hx with e | e
        · rw [e]; exact hk
        · exact ih hr x e

/-- Writing a page keeps the canonical form. -/
theorem pagesWf_writePage (n : Nat) (b : Bytes) {l : List (Nat × Bytes)} (h : pagesWf l = true) :
    pagesWf (writePage n b l) = true := by
  induction l with
  | nil =>
    unfold writePage
    split
    · rfl
    · rename_i hb; simp [pagesWf, hb]
  | cons y rest ih =>
    obtain ⟨k, c⟩ := y
    obtain ⟨h1, h2, h3⟩ := pagesWf_cons.mp h
    unfold writePage
    split
    · rename_i hlt
      split
      · exact h
      · rename_i hb
        refine pagesWf_cons.mpr ⟨by simpa using hb, ?_, h⟩
        intro x hx
        rcases List.mem_cons.mp hx with e | e
        · rw [e]; exact hlt
        · exact Nat.lt_trans hlt (h2 x e)
    · split
      · rename_i hne heq
        split
        · exact h3
        · rename_i hb
          exact pagesWf_cons.mpr ⟨by simpa using hb, heq ▸ h2, h3⟩
      · rename_i hlt hne
        exact pagesWf_cons.mpr ⟨h1, above_writePage (by omega) h2, ih h3⟩

theorem pagesWf_filter (f : Nat × Bytes → Bool) {l : List (Nat × Bytes)} (h : pagesWf l = true) :
    pagesWf (l.filter f) = true := by
  induction l with
  | nil => rfl
  | cons y rest ih =>
    obtain ⟨k, c⟩ := y
    obtain ⟨h1, h2, h3⟩ := pagesWf_cons.mp h
    by_cases hf : f (k, c) = true
    · rw [List.filter_cons_of_pos hf]
      exact pagesWf_cons.mpr ⟨h1, fun x hx => h2 x (List.mem_filter.mp hx).1, ih h3⟩
    · rw [List.filter_cons_of_neg hf]; exact ih h3

theorem pagesWf_erasePages (bank : Nat) {l : List (Nat × Bytes)} (h : pagesWf l = true) :
    pagesWf (erasePages bank l) = true := pagesWf_filter _ h

theorem pagesWf_erasePagesLeaving (bank : Nat) (left : List (Nat × Bytes)) {l : List (Nat × Bytes)}
    (h : pagesWf l = true) : pagesWf (erasePagesLeaving bank left l) = true := by
  unfold erasePagesLeaving
  have : ∀ (left l : List (Nat × Bytes)), pagesWf l = true → pagesWf (left.foldl
      (fun m x => if x.1 < 64 then writePage (64 * bank + x.1) x.2 m else m) l) = true := by
    intro left
    induction left with
    | nil => intro l h; exact h
    | cons x xs ih =>
      intro l h
      refine ih _ ?_
      dsimp only
      split
      · exact pagesWf_writePage _ _ h
      · exact h
  exact this left _ (pagesWf_erasePages bank h)

/-! ### Reads after writes -/

theorem lookupPage_above {n : Nat} {l : List (Nat × Bytes)} (h : ∀ x ∈ l, n < x.1) : lookupPage l n = erasedPage := by
  induction l with
  | nil => rfl
  | cons y rest ih =>
    obtain ⟨k, c⟩ := y
    have : n < k := h (k, c) (by simp)
    unfold lookupPage
    rw [if_neg (by omega)]
    exact ih (fun x hx => h x (by simp [hx]))

/-- Another page reads as before a write. -/
theorem lookupPage_writePage_other {m n : Nat} (b : Bytes) (l : List (Nat × Bytes)) (h : m ≠ n) :
    lookupPage (writePage n b l) m = lookupPage l m := by
  induction l with
  | nil => unfold writePage; split <;> simp [lookupPage, Ne.symm h]
  | cons y rest ih =>
    obtain ⟨k, c⟩ := y
    unfold writePage
    split
    · split
      · rfl
      · simp [lookupPage, Ne.symm h]
    · split
      · rename_i _ hk
        split
        · simp [lookupPage, ← hk, Ne.symm h]
        · simp [lookupPage, ← hk, Ne.symm h]
      · simp [lookupPage, ih]

/-- A page written reads as written; a page written with FFh in every byte of its 590 is erased. -/
theorem lookupPage_writePage_self {n : Nat} {b : Bytes} {l : List (Nat × Bytes)} (hl : pagesWf l = true)
    (hb : isErased b = true → b = erasedPage) : lookupPage (writePage n b l) n = b := by
  induction l with
  | nil =>
    unfold writePage
    split
    · rename_i h; simp [lookupPage, hb h]
    · simp [lookupPage]
  | cons y rest ih =>
    obtain ⟨k, c⟩ := y
    obtain ⟨h1, h2, h3⟩ := pagesWf_cons.mp hl
    unfold writePage
    split
    · rename_i hlt
      split
      · rename_i h
        rw [hb h]
        refine lookupPage_above ?_
        intro x hx
        rcases List.mem_cons.mp hx with e | e
        · rw [e]; exact hlt
        · exact Nat.lt_trans hlt (h2 x e)
      · simp [lookupPage]
    · split
      · rename_i _ heq
        split
        · rename_i h
          rw [hb h]; exact lookupPage_above (heq ▸ h2)
        · simp [lookupPage]
      · rename_i _ hne
        simp only [lookupPage]
        rw [if_neg (fun e => hne e.symm)]
        exact ih h3

/-! ### The store's operations on its memory -/

theorem pagesWf_write (t : Store) (a : PageAddr) (b : Bytes) (h : pagesWf t.pages = true) :
    pagesWf (t.write a b).pages = true := pagesWf_writePage _ _ h

theorem pagesWf_linkPrevious (t : Store) (p : BuiltPage) (a : PageAddr) (r : Option U8)
    (h : pagesWf t.pages = true) : pagesWf (t.linkPrevious p a r).pages = true := by
  unfold Store.linkPrevious
  split
  · exact h
  · exact h
  · exact pagesWf_write _ _ _ h

theorem pagesWf_commitAgrees (t : Store) (q : QueuedPage) (rest : List QueuedPage) (a : PageAddr) (r : Option U8)
    (h : pagesWf t.pages = true) : pagesWf (t.commitAgrees q rest a r).pages = true := by
  have : (t.commitAgrees q rest a r).pages = ((t.linkPrevious q.page a r).write a q.page.bytes).pages := by
    unfold Store.commitAgrees Store.passPage
    simp only [Store.mapEntry]
    split <;> rfl
  rw [this]
  exact pagesWf_write _ _ _ (pagesWf_linkPrevious _ _ _ _ h)

theorem Store.dropHead_pages (t : Store) : t.dropHead.pages = t.pages ∧ t.dropHead.retireMarks = t.retireMarks := by
  unfold Store.dropHead
  split <;> exact ⟨rfl, rfl⟩

theorem Store.commitMismatch_pages (t : Store) (q : QueuedPage) (rest : List QueuedPage) (a : PageAddr) (left : Bytes) :
    (t.commitMismatch q rest a left).pages = (t.write a left).pages := by
  unfold Store.commitMismatch
  simp only
  have hp : ∀ (u : Store) r, (u.passPage a.bank r).pages = u.pages := by
    intro u r; unfold Store.passPage; simp only; split <;> rfl
  split
  · rw [(Store.dropHead_pages _).1]
    split <;> simp [Store.retire, Store.setBank, hp]
  · split <;> simp [Store.retire, Store.setBank, hp]

theorem pagesWf_eraseEnds (t : Store) (i : Nat) (left : List (Nat × Bytes)) (h : pagesWf t.pages = true) :
    pagesWf (t.eraseEnds i left).1.pages = true := by
  have : (t.eraseEnds i left).1.pages = erasePagesLeaving i left t.pages := by
    unfold Store.eraseEnds
    simp only
    split <;> rfl
  rw [this]
  exact pagesWf_erasePagesLeaving _ _ h

theorem isErased_erasedPage : isErased erasedPage = true :=
  List.all_eq_true.mpr (fun x hx => by rw [List.eq_of_mem_replicate hx]; rfl)

/-- A page is written exactly when it does not read erased. -/
theorem mem_writtenPages {l : List (Nat × Bytes)} {bank p : Nat} :
    p ∈ writtenPages l bank ↔ p < 64 ∧ isErased (lookupPage l (64 * bank + p)) = false := by
  simp [writtenPages]

/-- A bank with an erased page below one that is not is partly erased. -/
theorem partlyErased_of_gap {l : List (Nat × Bytes)} {bank p q : Nat} (hpq : p < q) (hq : q < 64)
    (h1 : isErased (lookupPage l (64 * bank + p)) = true) (h2 : isErased (lookupPage l (64 * bank + q)) = false) :
    partlyErased l bank = true := by
  unfold partlyErased
  rw [bne_iff_ne]
  intro e
  have hq' : q ∈ writtenPages l bank := mem_writtenPages.mpr ⟨hq, h2⟩
  have hp' : p ∈ writtenPages l bank := by
    rw [e, List.mem_range] at hq' ⊢
    omega
  rw [(mem_writtenPages.mp hp').2] at h1
  cases h1

theorem lastWritten_bounds (l : List (Nat × Bytes)) (bank : Nat) : 0 < lastWritten l bank ∧ lastWritten l bank < 64 := by
  unfold lastWritten
  split
  · rename_i p h
    exact ⟨Nat.succ_pos _, (mem_writtenPages.mp (List.mem_of_getLast? h)).1⟩
  · decide

theorem pagesWf_cutErase (bank : Nat) (erased : BitVec 64) {l : List (Nat × Bytes)} (h : pagesWf l = true) :
    pagesWf (cutErase bank erased l) = true := by
  unfold cutErase
  simp only
  split
  · exact pagesWf_filter _ h
  · exact pagesWf_writePage _ _ (pagesWf_writePage _ _ (pagesWf_filter _ h))

/-- A cut erase leaves its bank partly erased (R187). -/
theorem cutErase_partly (bank : Nat) (erased : BitVec 64) {l : List (Nat × Bytes)} (h : pagesWf l = true) :
    partlyErased (cutErase bank erased l) bank = true := by
  have ⟨hb0, hb1⟩ := lastWritten_bounds l bank
  unfold cutErase
  simp only
  split
  · assumption
  · have hm := pagesWf_writePage (64 * bank) erasedPage
      (pagesWf_filter (fun x => !(x.1 / 64 == bank && erased.getLsbD (x.1 % 64))) h)
    have hne : isErased (if isErased (lookupPage l (64 * bank + lastWritten l bank)) = true then
        asBad (lookupPage l (64 * bank + lastWritten l bank))
        else lookupPage l (64 * bank + lastWritten l bank)) = false := by
      split
      · rename_i he
        unfold asBad
        split
        · rename_i hc; unfold pageClass at hc; unfold isErased at he; rw [if_pos he] at hc; cases hc
        · rfl
      · rename_i he; simpa using he
    refine partlyErased_of_gap hb0 hb1 ?_ ?_
    · rw [lookupPage_writePage_other _ _ (by omega), Nat.add_zero,
        lookupPage_writePage_self (pagesWf_filter _ h) (fun _ => rfl)]
      exact isErased_erasedPage
    · rw [lookupPage_writePage_self hm (fun e => by rw [hne] at e; cases e)]
      exact hne

/-- What a reset or a loss of supply cuts leaves the canonical form. -/
theorem pagesWf_cutPages (t : Store) (c : Cut) (h : pagesWf t.pages = true) : pagesWf (t.cutPages c) = true := by
  unfold Store.cutPages
  split
  · split
    · exact h
    · exact pagesWf_write _ _ _ h
    · exact pagesWf_write _ _ _ h
    · split
      · exact pagesWf_write _ _ _ h
      · exact pagesWf_write _ _ _ (pagesWf_linkPrevious _ _ _ _ h)
  · exact pagesWf_cutErase _ _ h
  · exact h

end Sys2Proof.Machine
end

