-- ==== Sys2Proof/Laws/Recorder.lean ====
section
/-!
SUPPORT. What the recorder's operations can do (R152 to R176): building pages, the arbiter, reclaim, triggers and
samples leave everything but the capture unit, the record store's tables, STORE_FULL and PAGE_DROPPED; the commit queue
and the pin list stay within their sizes.
-/

namespace Sys2Proof.Machine

/-- Between two stores the memory and the retirement marks are kept, the queue and the pin list have not grown, and
the scan stands where it stood. -/
structure TablesOnly (t u : Store) : Prop where
  pages : u.pages = t.pages
  retireMarks : u.retireMarks = t.retireMarks
  queue : u.queue.length ≤ t.queue.length
  pins : u.pins.length ≤ t.pins.length
  scan : u.scan = t.scan

theorem TablesOnly.refl (t : Store) : TablesOnly t t := ⟨rfl, rfl, Nat.le_refl _, Nat.le_refl _, rfl⟩

theorem TablesOnly.trans {t u v : Store} (h : TablesOnly t u) (k : TablesOnly u v) : TablesOnly t v :=
  ⟨k.pages.trans h.pages, k.retireMarks.trans h.retireMarks, Nat.le_trans k.queue h.queue,
    Nat.le_trans k.pins h.pins, k.scan.trans h.scan⟩

theorem Store.removeEntries_tables (t : Store) (gone : DirEntry → Bool) : TablesOnly t (t.removeEntries gone) :=
  ⟨rfl, rfl, Nat.le_refl _, List.length_filter_le _ _, rfl⟩

theorem Store.queueErase_tables (t : Store) (i : Nat) : TablesOnly t (t.queueErase i) :=
  ⟨rfl, rfl, Nat.le_refl _, Nat.le_refl _, rfl⟩

theorem Store.reclaim_tables (k n : Nat) (t : Store) : TablesOnly t (Store.reclaim k n t) := by
  induction n generalizing t with
  | zero => exact .refl t
  | succ n ih =>
    unfold Store.reclaim
    split
    · exact .refl t
    · split
      · exact .refl t
      · split
        · exact .refl t
        · exact ((Store.removeEntries_tables _ _).trans (Store.queueErase_tables _ _)).trans (ih _)

theorem Store.judgeReclaim_tables (t : Store) (k : Nat) : TablesOnly t (t.judgeReclaim k) :=
  Store.reclaim_tables k 16 t

theorem Store.startOther_tables (t : Store) : TablesOnly t t.startOther := by
  unfold Store.startOther
  split <;> exact ⟨rfl, rfl, Nat.le_refl _, Nat.le_refl _, rfl⟩

theorem Store.makeWriting_tables (t : Store) (i : Nat) : TablesOnly t (t.makeWriting i) :=
  ⟨rfl, rfl, Nat.le_refl _, Nat.le_refl _, rfl⟩

theorem Store.withOp_tables (t : Store) (o : StoreOp) : TablesOnly t { t with op := o } :=
  ⟨rfl, rfl, Nat.le_refl _, Nat.le_refl _, rfl⟩

theorem Store.dropHead_tables (t : Store) : TablesOnly t t.dropHead := by
  unfold Store.dropHead
  split
  · exact .refl t
  · rename_i q rest h
    exact ⟨rfl, rfl, by simp [h], Nat.le_refl _, rfl⟩

theorem Store.arbiter_tables (k n : Nat) (t : Store) : TablesOnly t (Store.arbiter k n t).1 := by
  induction n generalizing t with
  | zero => exact .refl t
  | succ n ih =>
    unfold Store.arbiter
    split
    · exact .refl t
    · split
      · exact Store.startOther_tables t
      · split
        · exact Store.withOp_tables t _
        · exact ((Store.makeWriting_tables t _).trans (Store.withOp_tables _ _)).trans (Store.judgeReclaim_tables _ _)
        · split
          · exact Store.startOther_tables t
          · simp only
            split
            · exact (Store.judgeReclaim_tables t k).trans (Store.startOther_tables _)
            · exact ((Store.judgeReclaim_tables t k).trans ((Store.dropHead_tables _).trans
                (Store.judgeReclaim_tables _ k))).trans (ih _)

theorem Store.dispatch_tables (t : Store) (k : Nat) : TablesOnly t (t.dispatch k).1 :=
  (Store.judgeReclaim_tables t k).trans (Store.arbiter_tables _ _ _)

theorem Store.makeRoom_tables (t : Store) (k : Nat) : TablesOnly t (t.makeRoom k) := by
  unfold Store.makeRoom
  split
  · exact .refl t
  · split
    · exact .refl t
    · exact Store.removeEntries_tables _ _

theorem Store.createEntry_tables (t : Store) (k : Nat) (kind : TriggerKind) (cls : Nat) (time : LinkTime) (index : U32)
    (pre : Nat) : TablesOnly t (t.createEntry k kind cls time index pre) := by
  have h := Store.makeRoom_tables t k
  exact ⟨h.pages, h.retireMarks, h.queue, h.pins, h.scan⟩

/-! ### Changes of the recorder alone -/

/-- A change of the capture unit and of the store's tables. -/
theorem recorderOnly_of {s t : State} (h : t = { s with capture := t.capture, store := t.store })
    (h1 : t.store.pages = s.store.pages) (h2 : t.store.retireMarks = s.store.retireMarks) : RecorderOnly s t := by
  have ho : t.orders = s.orders := by rw [h]
  constructor
  all_goals first
    | exact h1
    | exact h2
    | (intro f _ _; exact State.flag_congr (by rw [ho]) f)
    | (rw [h])

theorem State.setFlag_recorderOnly (s : State) {f : Flag} (h : f = .storeFull ∨ f = .pageDropped) :
    RecorderOnly s (s.setFlag f) := by
  constructor
  all_goals first
    | (intro g h1 h2; exact State.flag_setFlag_other s (by rcases h with h | h <;> rw [h] <;> exact Ne.symm ‹_›))
    | rfl

theorem State.setFlagIf_recorderOnly (s : State) (c : Bool) {f : Flag} (h : f = .storeFull ∨ f = .pageDropped) :
    RecorderOnly s (s.setFlagIf c f) := by
  cases c
  · exact .refl s
  · exact State.setFlag_recorderOnly s h

/-- Building pages puts at most as many into the queue as it has room for, and leaves the ring. -/
theorem State.buildPages_spec (n : Nat) (s : State) :
    RecorderOnly s (State.buildPages n s)
      ∧ (s.store.queue.length ≤ Config.commitQueue → (State.buildPages n s).store.queue.length ≤ Config.commitQueue)
      ∧ (State.buildPages n s).store.pins = s.store.pins ∧ (State.buildPages n s).capture.ring = s.capture.ring
      ∧ (State.buildPages n s).capture.counter = s.capture.counter
      ∧ (State.buildPages n s).store.scan = s.store.scan := by
  induction n generalizing s with
  | zero => exact ⟨.refl s, id, rfl, rfl, rfl, rfl⟩
  | succ n ih =>
    unfold State.buildPages
    split
    · exact ⟨.refl s, id, rfl, rfl, rfl, rfl⟩
    · split
      · exact ⟨.refl s, id, rfl, rfl, rfl, rfl⟩
      · rename_i hq
        split
        · exact ⟨.refl s, id, rfl, rfl, rfl, rfl⟩
        · rename_i r _ _ body _
          have hp : (s.capture.placed r body).ring = s.capture.ring
              ∧ (s.capture.placed r body).counter = s.capture.counter := by
            cases body <;> exact ⟨rfl, rfl⟩
          obtain ⟨h1, h2, h3, h4, h5, h6⟩ := ih
            { s with
              store := { s.store with queue := s.store.queue ++ [⟨⟨r.incident, r.nextPage, body⟩, 0⟩] }
              capture := s.capture.placed r body }
          refine ⟨RecorderOnly.trans ?_ h1, fun _ => h2 ?_, h3, h4.trans hp.1, h5.trans hp.2, h6⟩
          · exact recorderOnly_of rfl rfl rfl
          simp only [List.length_append, List.length_cons, List.length_nil]
          omega

/-- All that the recorder's work can do. -/
structure WorkOnly (s t : State) : Prop where
  only : RecorderOnly s t
  queue : s.store.queue.length ≤ Config.commitQueue → t.store.queue.length ≤ Config.commitQueue
  pins : t.store.pins.length ≤ s.store.pins.length
  ring : t.capture.ring = s.capture.ring
  counter : t.capture.counter = s.capture.counter
  scan : t.store.scan = s.store.scan

theorem WorkOnly.refl (s : State) : WorkOnly s s := ⟨.refl s, id, Nat.le_refl _, rfl, rfl, rfl⟩

theorem WorkOnly.trans {s t u : State} (h : WorkOnly s t) (k : WorkOnly t u) : WorkOnly s u :=
  ⟨h.only.trans k.only, fun x => k.queue (h.queue x), Nat.le_trans k.pins h.pins, k.ring.trans h.ring,
    k.counter.trans h.counter, k.scan.trans h.scan⟩

theorem State.storeWork_work (n : Nat) (s : State) : WorkOnly s (State.storeWork n s) := by
  induction n generalizing s with
  | zero => exact .refl s
  | succ n ih =>
    unfold State.storeWork
    obtain ⟨h1, h2, h3, h4, h5, h6⟩ := State.buildPages_spec 4 s
    have hd := Store.dispatch_tables (State.buildPages 4 s).store (State.buildPages 4 s).retention
    have h7 : RecorderOnly s (((State.buildPages 4 s).withStore
        ((State.buildPages 4 s).store.dispatch (State.buildPages 4 s).retention).1).setFlagIf
        ((State.buildPages 4 s).store.dispatch (State.buildPages 4 s).retention).2 .pageDropped) :=
      (h1.trans (recorderOnly_of rfl hd.pages hd.retireMarks)).trans (State.setFlagIf_recorderOnly _ _ (.inr rfl))
    have h8 : WorkOnly s (((State.buildPages 4 s).withStore
        ((State.buildPages 4 s).store.dispatch (State.buildPages 4 s).retention).1).setFlagIf
        ((State.buildPages 4 s).store.dispatch (State.buildPages 4 s).retention).2 .pageDropped) := by
      refine ⟨h7, ?_, ?_, ?_, ?_, ?_⟩
      · intro x; simp only [State.setFlagIf_store, State.withStore_store]; exact Nat.le_trans hd.queue (h2 x)
      · simp only [State.setFlagIf_store, State.withStore_store]; rw [← h3]; exact hd.pins
      · simpa using h4
      · simpa using h5
      · simp only [State.setFlagIf_store, State.withStore_store]; exact hd.scan.trans h6
    simp only
    split
    · exact h8.trans (ih _)
    · exact h8

theorem State.runStore_work (s : State) : WorkOnly s s.runStore := State.storeWork_work 140 s

/-! ### Triggers and samples -/

theorem workOnly_capture {s t : State} (h : t = { s with capture := t.capture })
    (h1 : t.capture.ring = s.capture.ring) (h2 : t.capture.counter = s.capture.counter) : WorkOnly s t := by
  have hs : t.store = s.store := by rw [h]
  refine ⟨recorderOnly_of ?_ (by rw [hs]) (by rw [hs]), ?_, ?_, h1, h2, ?_⟩
  · rw [h]
  · rw [hs]; exact id
  · exact Nat.le_of_eq (by rw [hs])
  · rw [hs]

theorem State.mapRecord_work (f : CaptureRecord → CaptureRecord) (s : State) : WorkOnly s (s.mapRecord f) :=
  workOnly_capture rfl rfl rfl

theorem State.beginCapture_work (kind : TriggerKind) (e : TriggerEntry) (s : State) :
    WorkOnly s (s.beginCapture kind e) := by
  have h := Store.createEntry_tables s.store s.retention kind (s.newRecord kind e).cls s.time (s.newRecord kind e).index
    (s.newRecord kind e).pre
  exact ⟨recorderOnly_of rfl h.pages h.retireMarks, fun x => Nat.le_trans h.queue x, h.pins, rfl, rfl, h.scan⟩

theorem State.startCapture_work (kind : TriggerKind) (e : TriggerEntry) (s : State) :
    WorkOnly s (s.startCapture kind e) := by
  have h := (State.beginCapture_work kind e s).trans (State.runStore_work _)
  unfold State.startCapture
  simp only
  split
  · exact (h.trans (State.mapRecord_work _ _)).trans (State.runStore_work _)
  · exact h

/-- All that a trigger can do (R156). -/
theorem State.takeTrigger_work (kind : TriggerKind) (s : State) : WorkOnly s (s.takeTrigger kind) := by
  unfold State.takeTrigger
  simp only
  split
  · exact .refl s
  · split
    · exact workOnly_capture rfl rfl rfl
    · split
      · exact State.startCapture_work _ _ s
      · refine WorkOnly.trans (workOnly_capture (s := s) (t := { s with
          capture := { s.capture with missedFull := satAdd 65535 s.capture.missedFull 1 } }) rfl rfl rfl) ?_
        exact ⟨State.setFlag_recorderOnly _ (.inl rfl), id, Nat.le_refl _, rfl, rfl, rfl⟩
    · exact (State.mapRecord_work _ s).trans (State.runStore_work _)

theorem State.takeTrigger_only (kind : TriggerKind) (s : State) : RecorderOnly s (s.takeTrigger kind) :=
  (State.takeTrigger_work kind s).only

theorem Capture.enterRing_length (c : Capture) (x : Sample) (h : c.ring.length ≤ Config.ringSize) :
    (c.enterRing x).ring.length ≤ Config.ringSize := by
  unfold Capture.enterRing
  split
  · simp [Config.ringSize]
  · rename_i old rest hr
    split
    · rename_i hl; simp only [List.length_append, List.length_cons, List.length_nil]; omega
    · simp only [List.length_append, List.length_cons, List.length_nil]; rw [hr] at h; exact h

/-- All that the taking of a sample can do (R152, R154). -/
theorem State.takeSample_spec (event : CompEvent) (shortfall : Option Nat) (s : State) :
    RecorderOnly s (s.takeSample event shortfall)
      ∧ (s.capture.ring.length ≤ Config.ringSize → (s.takeSample event shortfall).capture.ring.length ≤ Config.ringSize)
      ∧ (s.store.queue.length ≤ Config.commitQueue →
          (s.takeSample event shortfall).store.queue.length ≤ Config.commitQueue)
      ∧ (s.takeSample event shortfall).store.pins.length ≤ s.store.pins.length
      ∧ (s.takeSample event shortfall).capture.counter = s.capture.counter + 1
      ∧ (s.takeSample event shortfall).capture.ring = (s.capture.enterRing (s.sample event shortfall)).ring := by
  have h := State.runStore_work { s with capture := s.capture.take (s.sample event shortfall) }
  refine ⟨RecorderOnly.trans ?_ h.only, ?_, h.queue, h.pins, h.counter, h.ring⟩
  · exact recorderOnly_of rfl rfl rfl
  intro hr
  have hx : (s.takeSample event shortfall).capture.ring = (s.capture.enterRing (s.sample event shortfall)).ring := h.ring
  rw [hx]
  exact Capture.enterRing_length _ _ hr

theorem State.takeSample_only (event : CompEvent) (shortfall : Option Nat) (s : State) :
    RecorderOnly s (s.takeSample event shortfall) := (State.takeSample_spec event shortfall s).1

end Sys2Proof.Machine
end

