-- ==== Sys2Proof/Laws/Events.lean ====
section
/-!
SUPPORT. What every event keeps, operation by operation: the waiting commands, the phase, link time, the restart
count and the memory of the record store stand as they did, and the ring, the commit queue, the pin list, the output
queues and the heat index stay within their sizes. The statements about every step rest on these lemmas.
-/

namespace Sys2Proof.Machine

/-- What every event but a reset and the end of a memory operation keeps. -/
structure Event (s t : State) : Prop where
  pending : t.pending = s.pending
  phase : t.phase = s.phase
  time : t.time = s.time
  restarts : t.orders.restarts = s.orders.restarts
  pages : t.store.pages = s.store.pages
  marks : t.store.retireMarks = s.store.retireMarks
  ring : s.capture.ring.length ≤ Config.ringSize → t.capture.ring.length ≤ Config.ringSize
  queue : s.store.queue.length ≤ Config.commitQueue → t.store.queue.length ≤ Config.commitQueue
  pins : s.store.pins.length ≤ Config.pinListSize → t.store.pins.length ≤ Config.pinListSize
  ports : ∀ p, (s.port p).bounded → (t.port p).bounded
  heat : s.capability.heat ≤ 999999 → t.capability.heat ≤ 999999
  held : s.noHeld → t.noHeld

theorem Event.refl (s : State) : Event s s := ⟨rfl, rfl, rfl, rfl, rfl, rfl, id, id, id, fun _ => id, id, id⟩

theorem Event.trans {s t u : State} (h : Event s t) (k : Event t u) : Event s u :=
  ⟨k.pending.trans h.pending, k.phase.trans h.phase, k.time.trans h.time, k.restarts.trans h.restarts,
    k.pages.trans h.pages, k.marks.trans h.marks, fun x => k.ring (h.ring x), fun x => k.queue (h.queue x),
    fun x => k.pins (h.pins x), fun p x => k.ports p (h.ports p x), fun x => k.heat (h.heat x),
    fun x => k.held (h.held x)⟩

/-- A change of what events may change freely. -/
structure Calm (s t : State) : Prop where
  pending : t.pending = s.pending
  phase : t.phase = s.phase
  time : t.time = s.time
  ports : t.ports = s.ports
  capture : t.capture.ring = s.capture.ring
  store : t.store = s.store
  restarts : t.orders.restarts = s.orders.restarts
  heat : t.capability.heat = s.capability.heat
  held : s.noHeld → t.noHeld

theorem Calm.refl (s : State) : Calm s s := ⟨rfl, rfl, rfl, rfl, rfl, rfl, rfl, rfl, id⟩

theorem Calm.trans {s t u : State} (h : Calm s t) (k : Calm t u) : Calm s u :=
  ⟨k.pending.trans h.pending, k.phase.trans h.phase, k.time.trans h.time, k.ports.trans h.ports,
    k.capture.trans h.capture, k.store.trans h.store, k.restarts.trans h.restarts, k.heat.trans h.heat,
    fun x => k.held (h.held x)⟩

theorem Calm.event {s t : State} (h : Calm s t) : Event s t :=
  ⟨h.pending, h.phase, h.time, h.restarts, by rw [h.store], by rw [h.store], by rw [h.capture]; exact id,
    by rw [h.store]; exact id, by rw [h.store]; exact id, by intro p; simp only [State.port, h.ports]; exact id,
    by rw [h.heat]; exact id, h.held⟩

theorem WorkOnly.event {s t : State} (h : WorkOnly s t) : Event s t :=
  ⟨h.only.pending, h.only.phase, h.only.time, h.only.restarts, h.only.pages, h.only.retireMarks,
    by rw [h.ring]; exact id, h.queue, fun x => Nat.le_trans h.pins x,
    by intro p; simp only [State.port, h.only.ports]; exact id, by rw [h.only.capability]; exact id,
    by unfold State.noHeld; rw [h.only.positions]; exact id⟩

/-- A store with the same memory, its queue and pin list not grown, in place of the store. -/
theorem State.withStore_event {s : State} {u : Store} (h : TablesOnly s.store u) : Event s (s.withStore u) :=
  ⟨rfl, rfl, rfl, rfl, h.pages, h.retireMarks, id, fun x => Nat.le_trans h.queue x, fun x => Nat.le_trans h.pins x,
    fun _ => id, id, id⟩

theorem State.runStore_event (s : State) : Event s s.runStore := (State.runStore_work s).event
theorem State.takeTrigger_event (k : TriggerKind) (s : State) : Event s (s.takeTrigger k) :=
  (State.takeTrigger_work k s).event

theorem State.takeSample_event (e : CompEvent) (n : Option Nat) (s : State) : Event s (s.takeSample e n) := by
  obtain ⟨h1, h2, h3, h4, _, _⟩ := State.takeSample_spec e n s
  exact ⟨h1.pending, h1.phase, h1.time, h1.restarts, h1.pages, h1.retireMarks, h2, h3, fun x => Nat.le_trans h4 x,
    by intro p; simp only [State.port, h1.ports]; exact id, by rw [h1.capability]; exact id,
    by unfold State.noHeld; rw [h1.positions]; exact id⟩

/-! ### Telegrams and replies -/

theorem replaceWaiting_length (t : OwnTelegram) (l : List OwnTelegram) : (replaceWaiting t l).length = l.length := by
  induction l with
  | nil => rfl
  | cons x xs ih => unfold replaceWaiting; split <;> simp [ih]

theorem PortState.enterOwn_bounded {q : PortState} (t : OwnTelegram) (h : q.bounded) : (q.enterOwn t).bounded := by
  unfold PortState.bounded PortState.waiting at *
  unfold PortState.enterOwn
  split
  · simpa [replaceWaiting_length] using h
  · split
    · rename_i hw
      simp only [PortState.waiting, Bool.or_eq_true, List.isEmpty_iff] at hw
      simp only [List.length_append, List.length_cons, List.length_nil]
      rcases hw with hw | hw
      · left; have := of_decide_eq_true hw; omega
      · right; exact hw
    · rename_i hw
      simp only [PortState.waiting, Bool.or_eq_true, List.isEmpty_iff, not_or] at hw
      have : 0 < q.fwd.length := List.length_pos_iff.mpr hw.2
      simp only [List.length_append, List.length_cons, List.length_nil, List.length_dropLast]
      rcases h with h | h
      · left; omega
      · exact absurd h hw.2

theorem PortState.enterForwarded_bounded {q : PortState} (t : Telegram) (h : q.bounded) :
    (q.enterForwarded t).bounded := by
  unfold PortState.enterForwarded
  split
  · rename_i hw
    left
    simp only [PortState.waiting, List.length_append, List.length_cons, List.length_nil] at hw ⊢
    omega
  · exact h

theorem OwnTelegram.nextFragment_length (t : OwnTelegram) : t.nextFragment.length ≤ 1 := by
  cases t <;> simp only [OwnTelegram.nextFragment] <;> first | (split <;> simp) | simp

theorem PortState.advance_waiting (q : PortState) (t : OwnTelegram) :
    (q.advance t).fwd = q.fwd ∧ (q.advance t).own = q.own := by
  cases t <;> exact ⟨rfl, rfl⟩

/-- An event that changes ports and orders only. -/
theorem event_of_ports {s t : State} (h : t = { s with ports := t.ports, orders := t.orders })
    (hr : t.orders.restarts = s.orders.restarts) (hp : ∀ p, (s.port p).bounded → (t.port p).bounded)
    (hh : s.noHeld → t.noHeld) : Event s t := by
  refine ⟨?_, ?_, ?_, hr, ?_, ?_, ?_, ?_, ?_, hp, ?_, hh⟩ <;> rw [h] <;> exact id

theorem State.startTx_event (p : Port) (s : State) : Event s (s.startTx p) := by
  rcases State.startTx_cases p s with h | ⟨_, _, t, rest, ho, h⟩ | ⟨_, _, ho, f, rest, hf, h⟩
  · rw [h]; exact .refl s
  · rw [h]
    refine event_of_ports rfl rfl ?_ (Cleared.noHeld (t.clears_cleared _))
    intro r hb
    by_cases e : p = r
    · subst e
      have hn := t.nextFragment_length
      obtain ⟨ha, _⟩ := PortState.advance_waiting (s.port p) t
      simp only [State.port, PerPort.get_set_self]
      unfold PortState.bounded PortState.waiting at hb ⊢
      simp only [State.port] at ha ho hb ⊢
      simp only [ha, List.length_append]
      rw [ho] at hb
      simp only [List.length_cons] at hb
      rcases hb with hb | hb
      · left; omega
      · right; exact hb
    · simpa [State.port, PerPort.get_set, e] using hb
  · rw [h]
    refine event_of_ports rfl rfl ?_ id
    intro r hb
    by_cases e : p = r
    · subst e
      rw [State.port_withPort_self]
      unfold PortState.bounded PortState.waiting at hb ⊢
      simp only [ho, hf, List.length_cons, List.length_nil] at hb ⊢
      rcases hb with hb | hb
      · left; omega
      · cases hb
    · simpa [State.port_withPort, e] using hb

theorem State.withPort_event {s : State} (p : Port) (q : PortState) (h : (s.port p).bounded → q.bounded) :
    Event s (s.withPort p q) := by
  refine event_of_ports rfl rfl ?_ id
  intro r hb
  by_cases e : p = r
  · subst e; rw [State.port_withPort_self]; exact h hb
  · simpa [State.port_withPort, e] using hb

theorem State.setFlag_calm (f : Flag) (s : State) : Calm s (s.setFlag f) := ⟨rfl, rfl, rfl, rfl, rfl, rfl, rfl, rfl, id⟩
theorem State.setFlagIf_calm (c : Bool) (f : Flag) (s : State) : Calm s (s.setFlagIf c f) := by
  cases c
  · exact .refl s
  · exact s.setFlag_calm f
theorem State.dropFlag_calm (f : Flag) (s : State) : Calm s (s.dropFlag f) := ⟨rfl, rfl, rfl, rfl, rfl, rfl, rfl, rfl, id⟩

theorem State.enqueueOwn_event (p : Port) (t : OwnTelegram) (s : State) : Event s (s.enqueueOwn p t) :=
  ((State.withPort_event p _ (PortState.enterOwn_bounded t)).trans (State.setFlagIf_calm _ _ _).event).trans
    (State.startTx_event p _)

theorem State.forward_event (p : Port) (t : Telegram) (s : State) : Event s (s.forward p t) :=
  ((State.withPort_event p _ (PortState.enterForwarded_bounded t)).trans (State.setFlagIf_calm _ _ _).event).trans
    (State.startTx_event p _)

/-- A change of the order handler's own fields but the restart count. -/
theorem calm_orders {s t : State} (h : t = { s with orders := t.orders })
    (hr : t.orders.restarts = s.orders.restarts) (hh : s.noHeld → t.noHeld) : Calm s t := by
  refine ⟨?_, ?_, ?_, ?_, ?_, ?_, hr, ?_, hh⟩ <;> rw [h]

theorem State.emitStatus_event (s : State) : Event s s.emitStatus :=
  (State.enqueueOwn_event .cab (.partStatus s.status) s).trans
    (calm_orders (by rfl) (by rfl) (by exact id)).event

theorem State.noteReport_event (s : State) : Event s s.noteReport := (calm_orders (by rfl) (by rfl) (by exact id)).event

theorem State.report_event (s : State) : Event s s.report := by
  have h1 := s.noteReport_event.trans s.noteReport.emitStatus_event
  rcases s.report_cases with h | h | h <;> rw [h]
  · exact .refl s
  · exact h1
  · exact (h1.trans (State.noteReport_event _)).trans (State.emitStatus_event _)

theorem State.mapPosition_event (pid : Nat) (f : Position → Position) (s : State)
    (hf : ∀ p, p.held = none → (f p).held = none) : Event s (s.mapPosition pid f) :=
  (calm_orders (by rfl) (by rfl) (by exact updatePosition_forall (P := fun p => p.held = none) pid f hf)).event

theorem State.handOver_event (pid : Nat) (r : Reply) (s : State) : Event s (s.handOver pid r) := by
  rcases s.handOver_cases pid r with h | ⟨p, _, _, h⟩ | ⟨p, _, _, h⟩ <;> rw [h]
  · exact .refl s
  · exact State.mapPosition_event _ _ s (fun _ x => x)
  · refine Event.trans ?_ (State.enqueueOwn_event _ _ _)
    exact State.mapPosition_event _ _ s (fun _ x => x)

theorem State.answerLong_event (res : Result) (d : ReplyData) (s : State) : Event s (s.answerLong res d) := by
  unfold State.answerLong
  split
  · exact .refl s
  · refine Event.trans ?_ (State.handOver_event _ _ _)
    exact (calm_orders (by rfl) (by rfl) (by exact fun x => x)).event

/-! ### Control unit, capability unit, command builder -/

theorem State.withBuilder_calm (b : Builder) (s : State) : Calm s (s.withBuilder b) :=
  ⟨rfl, rfl, rfl, rfl, rfl, rfl, rfl, rfl, id⟩
theorem State.withControl_calm (s : State) (c : Control) : Calm s { s with control := c } :=
  ⟨rfl, rfl, rfl, rfl, rfl, rfl, rfl, rfl, id⟩
theorem State.withSlide_calm (s : State) (m : Slide) : Calm s { s with slide := m } :=
  ⟨rfl, rfl, rfl, rfl, rfl, rfl, rfl, rfl, id⟩
theorem State.withBlender_calm (s : State) (b : Blender) : Calm s { s with blender := b } :=
  ⟨rfl, rfl, rfl, rfl, rfl, rfl, rfl, rfl, id⟩
theorem State.withTables_calm (s : State) (t : Tables) : Calm s { s with tables := t } :=
  ⟨rfl, rfl, rfl, rfl, rfl, rfl, rfl, rfl, id⟩
theorem State.withSources_calm (s : State) (l : List SourceRecord) : Calm s { s with sources := l } :=
  ⟨rfl, rfl, rfl, rfl, rfl, rfl, rfl, rfl, id⟩
theorem State.withThermal_calm (s : State) (t : Thermal) :
    Calm s { s with capability := { s.capability with thermal := t } } := ⟨rfl, rfl, rfl, rfl, rfl, rfl, rfl, rfl, id⟩

theorem State.superviseTruck_calm (k : Truck) (s : State) : Calm s (s.superviseTruck k) := by
  unfold State.superviseTruck; split
  · exact .refl s
  · exact s.withBuilder_calm _

theorem State.answerTruck_calm (k : Truck) (s : State) : Calm s (s.answerTruck k) := by
  unfold State.answerTruck; split
  · exact s.withBuilder_calm _
  · exact .refl s

theorem State.resumeTruck_calm (k : Truck) (s : State) : Calm s (s.resumeTruck k) := by
  unfold State.resumeTruck; split
  · exact s.withBuilder_calm _
  · exact .refl s

theorem State.suspendTruck_calm (k : Truck) (s : State) : Calm s (s.suspendTruck k) := by
  unfold State.suspendTruck; split
  · exact .refl s
  · exact s.withBuilder_calm _

theorem State.pressureStale_calm (s : State) : Calm s s.pressureStale :=
  ((s.withBuilder_calm _).trans (State.suspendTruck_calm .a _)).trans (State.suspendTruck_calm .b _)

theorem State.putCommand_event (c : BrakeCmd) (s : State) : Event s (s.putCommand c) :=
  (State.enqueueOwn_event .drive _ s).trans
    (((State.withBuilder_calm _ _).trans (State.superviseTruck_calm .a _)).trans (State.superviseTruck_calm .b _)).event

theorem State.emitControl_event (s : State) : Event s s.emitControl :=
  (State.withBuilder_calm _ s).event.trans (State.putCommand_event _ _)

theorem State.emitStandby_event (s : State) : Event s s.emitStandby := State.putCommand_event _ s

theorem State.handOff_event (changed : List Axle) (request : Bool) (s : State) : Event s (s.handOff changed request) := by
  unfold State.handOff
  split
  · exact .refl s
  · simp only
    have h1 : ∀ b, Event s (s.withBuilder b) := fun b => (s.withBuilder_calm b).event
    have h2 : ∀ b e, Event s ((s.withBuilder b).deriveActions e) :=
      fun b e => (h1 b).trans (State.withBuilder_calm _ (s.withBuilder b)).event
    split
    · exact h1 _
    · split
      · exact (h2 _ _).trans (State.emitControl_event _)
      · exact h2 _ _

theorem State.endCalibration_event (c : Calibration) (res : Result) (d : ReplyData) (leaving : Bool) (s : State) :
    Event s (s.endCalibration c res d leaving) := by
  have h : Event s (((s.answerLong res d).setTruckChannel c.truck ⟨.manual, c.pOff⟩).withBuilder
      { ((s.answerLong res d).setTruckChannel c.truck ⟨.manual, c.pOff⟩).builder with calibration := none }) :=
    ((State.answerLong_event res d s).trans (State.withControl_calm (s.answerLong res d) _).event).trans
      (State.withBuilder_calm _ _).event
  unfold State.endCalibration
  simp only
  split
  · exact (h.trans (State.withBuilder_calm _ _).event).trans (State.emitControl_event _)
  · exact h.trans (State.withBuilder_calm _ _).event

theorem State.abortCalibration_event (leaving : Bool) (s : State) : Event s (s.abortCalibration leaving) := by
  unfold State.abortCalibration
  split
  · exact .refl s
  · exact State.endCalibration_event _ _ _ _ s

theorem State.calibrationDone_event (c : Calibration) (s : State) : Event s (s.calibrationDone c) :=
  (State.withTables_calm s _).event.trans (State.endCalibration_event c _ _ _ _)

theorem State.calibrationLimit_event (c : Calibration) (s : State) : Event s (s.calibrationLimit c) :=
  (State.setFlag_calm _ s).event.trans (State.endCalibration_event c _ _ _ _)

theorem State.judgeCalibration_event (s : State) : Event s s.judgeCalibration := by
  unfold State.judgeCalibration
  split
  · exact .refl s
  · split
    · split
      · exact State.calibrationDone_event _ s
      · exact .refl s
    · exact .refl s

theorem State.startCalibration_event (k : Truck) (pid : Nat) (tag : U8) (s : State) :
    Event s (s.startCalibration k pid tag) := by
  refine Event.trans ?_ (State.emitControl_event _)
  exact ((State.withControl_calm s _).trans ((State.withBuilder_calm _ _).trans (State.withBuilder_calm _ _))).event

theorem State.stepCalibration_event (c : Calibration) (s : State) : Event s (s.stepCalibration c) :=
  (State.withBuilder_calm _ s).event.trans (State.emitControl_event _)

theorem State.takePressure_event (m : Mark) (p : PressurePayload) (s : State) : Event s (s.takePressure m p) := by
  refine Event.trans (Calm.event ?_) (State.judgeCalibration_event _)
  refine Calm.trans (Calm.trans ?_ (State.answerTruck_calm .a _)) (State.answerTruck_calm .b _)
  refine Calm.trans ?_ (State.withBuilder_calm _ _)
  split
  · exact (State.resumeTruck_calm .a s).trans (State.resumeTruck_calm .b _)
  · exact .refl s

theorem State.ventExpire_event (k : Truck) (s : State) : Event s (s.ventExpire k) :=
  ((State.withBuilder_calm _ s).trans (State.setFlag_calm _ _)).event.trans (State.takeTrigger_event _ _)

theorem State.superviseLate_event (k : Truck) (s : State) : Event s (s.superviseLate k) :=
  ((State.withBuilder_calm _ s).trans (State.setFlag_calm _ _)).event.trans (State.takeTrigger_event _ _)

theorem State.evaluateThermal_event (s : State) : Event s s.evaluateThermal := by
  have h := fun t => (State.withThermal_calm s t).event
  unfold State.evaluateThermal
  simp only
  split
  · exact h _
  · split
    · exact h _
    · exact (h _).trans (State.setFlag_calm _ _).event
    · exact ((h _).trans (State.setFlag_calm _ _).event).trans (State.takeTrigger_event _ _)

theorem Capability.heatStep_le (c : Capability) (pCool eSum vref dt : Nat) : (c.heatStep pCool eSum vref dt).heat ≤ 999999 := by
  unfold Capability.heatStep
  simp only
  split
  · exact Nat.zero_le _
  · exact Nat.min_le_left _ _

theorem State.heatUpdate_event (dt : Nat) (s : State) : Event s (s.heatUpdate dt) := by
  refine Event.trans ?_ (State.evaluateThermal_event _)
  exact ⟨rfl, rfl, rfl, rfl, rfl, rfl, id, id, id, fun _ => id, fun _ => Capability.heatStep_le _ _ _ _ _, id⟩

theorem State.withInverters_calm (s : State) (v : PerAxle InverterState) :
    Calm s { s with capability := { s.capability with inverters := v } } :=
  ⟨rfl, rfl, rfl, rfl, rfl, rfl, rfl, rfl, id⟩

theorem State.takeEffortReport_calm (n : Inverter) (p : EffortPayload) (s : State) : Calm s (s.takeEffortReport n p) :=
  (State.withInverters_calm s _).trans (State.setFlagIf_calm _ _ _)

theorem State.inverterStale_event (n : Inverter) (s : State) : Event s (s.inverterStale n) :=
  ((State.withInverters_calm s _).trans (State.setFlag_calm _ _)).event.trans (State.takeTrigger_event _ _)

/-! ### Part states and slide monitor -/

theorem State.leaveMaintenance_event (s : State) : Event s s.leaveMaintenance :=
  (State.abortCalibration_event true s).trans (State.withControl_calm _ _).event

theorem State.enterFromStandby_calm (p : PartState) (s : State) : Calm s (s.enterFromStandby p) :=
  (State.withControl_calm s _).trans (State.withBuilder_calm _ _)

theorem State.enterFallback_event (s : State) : Event s s.enterFallback := by
  unfold State.enterFallback
  simp only
  refine Event.trans ?_ ((State.withControl_calm _ _).trans (State.withBlender_calm _ _)).event
  split
  · exact State.leaveMaintenance_event s
  · exact .refl s

theorem State.enterStandby_calm (s : State) : Calm s s.enterStandby :=
  ((State.withControl_calm s _).trans (State.withBlender_calm _ _)).trans (State.withBuilder_calm _ _)

theorem State.reportMotion_event (s : State) : Event s s.reportMotion := by
  unfold State.reportMotion
  split
  · exact ((State.leaveMaintenance_event s).trans (State.withControl_calm _ _).event).trans (State.takeTrigger_event _ _)
  · exact .refl s

theorem State.reportCreeping_event (s : State) : Event s s.reportCreeping := by
  unfold State.reportCreeping
  split
  · exact State.abortCalibration_event false s
  · exact .refl s

theorem State.lowerAdhesion_calm (s : State) : Calm s s.lowerAdhesion :=
  (State.withSlide_calm s _).trans (State.setFlagIf_calm _ _ _)

theorem State.restartRecovery_calm (s : State) : Calm s s.restartRecovery := State.withSlide_calm s _

theorem State.setAttention_calm (a : Axle) (s : State) : Calm s (s.setAttention a) := State.withSlide_calm s _

theorem State.entryConsequences_event (a : Axle) (st : SlideState) (s : State) : Event s (s.entryConsequences a st) := by
  unfold State.entryConsequences
  split
  · exact (((State.setAttention_calm a s).event.trans (State.takeTrigger_event _ _)).trans
      (State.lowerAdhesion_calm _).event).trans (State.restartRecovery_calm _).event
  · exact ((((State.setAttention_calm a s).trans (State.setFlag_calm _ _)).event.trans
      (State.takeTrigger_event _ _)).trans (State.lowerAdhesion_calm _).event).trans (State.restartRecovery_calm _).event
  · exact (State.setAttention_calm a s).event
  · exact .refl s

theorem foldl_event {α : Type} (f : State → α → State) (hf : ∀ s a, Event s (f s a)) (l : List α) (s : State) :
    Event s (l.foldl f s) := by
  induction l generalizing s with
  | nil => exact .refl s
  | cons a l ih => exact (hf s a).trans (ih _)

theorem State.allConsequences_event (l : List Axle) (s : State) : Event s (s.allConsequences l) :=
  foldl_event (fun t a => t.entryConsequences a (s.slide.axles.get a).state)
    (fun t a => State.entryConsequences_event a _ t) l s

theorem State.handSlide_event (l : List Axle) (s : State) : Event s (s.handSlide l) := State.handOff_event l _ s

theorem State.handVref_event (dt : Option Nat) (s : State) : Event s (s.handVref dt) := by
  unfold State.handVref
  refine Event.trans (Event.trans ?_ (State.reportMotion_event _)) (State.reportCreeping_event _)
  split
  · exact State.heatUpdate_event _ s
  · exact .refl s

theorem State.judgeAxles_event (p : SpeedPayload) (last : PerAxle Nat) (s : State) : Event s (s.judgeAxles p last) := by
  unfold State.judgeAxles
  exact ((State.withSlide_calm s _).event.trans (State.allConsequences_event _ _)).trans (State.handSlide_event _ _)

theorem State.takeSpeed_event (p : SpeedPayload) (s : State) : Event s (s.takeSpeed p) := by
  unfold State.takeSpeed
  simp only
  split
  · exact (((State.withSlide_calm s _).trans (State.withSlide_calm _ _)).event.trans (State.handVref_event _ _)).trans
      (State.handSlide_event _ _)
  · exact ((State.withSlide_calm s _).event.trans (State.handVref_event _ _)).trans (State.judgeAxles_event _ _ _)

theorem State.speedStaleRecords_event (s : State) : Event s s.speedStaleRecords :=
  (State.withSlide_calm s _).event.trans (State.allConsequences_event _ _)

theorem State.recoveryStep_calm (s : State) : Calm s s.recoveryStep := State.withSlide_calm s _

/-! ### Staleness and the table switch -/

theorem State.staleRole_event (r : Role) (s : State) : Event s (s.staleRole r) := by
  unfold State.staleRole
  refine Event.trans (State.setFlagIf_calm r.setsSourceStale .sourceStale s).event ?_
  unfold State.staleEffects
  split
  · exact State.speedStaleRecords_event _
  · exact State.inverterStale_event _ _
  · exact State.inverterStale_event _ _
  · exact (State.pressureStale_calm _).event
  · exact .refl _

theorem State.reportStale_event (r : Role) (s : State) : Event s (s.reportStale r) := by
  unfold State.reportStale
  simp only
  split
  · exact (State.staleRole_event r s).trans (State.handSlide_event _ _)
  · exact State.staleRole_event r s

theorem State.rebuildSources_event (t : TableSet) (s : State) : Event s (s.rebuildSources t) :=
  (State.withSources_calm s _).event.trans
    (foldl_event (fun x r => x.staleRole r) (fun x r => State.staleRole_event r x) _ _)

theorem State.adjustSlide_calm (s : State) : Calm s s.adjustSlide := (State.withSlide_calm s _).trans (State.setFlagIf_calm _ _ _)

theorem rebuiltPositions_noHeld (old : List Position) (h : ∀ p ∈ old, p.held = none) (pid : Nat)
    (l : List SourceRecord) : ∀ p ∈ rebuiltPositions old pid l, p.held = none := by
  induction l generalizing pid with
  | nil => intro p hp; cases hp
  | cons r rs ih =>
    unfold rebuiltPositions
    split
    · split
      · rename_i q hq
        intro p hp
        rcases List.mem_cons.mp hp with e | e
        · rw [e]; exact h q (List.mem_of_find?_eq_some hq)
        · exact ih _ p e
      · intro p hp
        rcases List.mem_cons.mp hp with e | e
        · rw [e]
        · exact ih _ p e
    · exact ih pid

theorem State.rebuildPositions_noHeld (s : State) (h : s.noHeld) : s.rebuildPositions.noHeld := by
  intro p hp
  simp only [State.rebuildPositions, List.mem_append, List.mem_map] at hp
  rcases hp with ⟨q, hq, e⟩ | ⟨q, _, e⟩
  · rw [← e]; exact rebuiltPositions_noHeld _ h _ _ q hq
  · rw [← e]; rfl

theorem State.rebuildPositions_event (s : State) : Event s s.rebuildPositions :=
  (calm_orders (by rfl) (by rfl) s.rebuildPositions_noHeld).event

theorem State.switchTo_event (t : TableSet) (crc : U16) (b : Bool) (s : State) : Event s (s.switchTo t crc b) := by
  have h1 : Event s ((s.activate t crc).rebuildSources t) :=
    (State.withTables_calm s _).event.trans (State.rebuildSources_event t _)
  have h2 := h1.trans (State.withControl_calm _ (((s.activate t crc).rebuildSources t).control.adjust t)).event
  unfold State.switchTo
  simp only
  refine Event.trans ?_ (State.handOff_event _ _ _)
  refine Event.trans ?_ (State.takeTrigger_event _ _)
  refine Event.trans ?_ (State.runStore_event _)
  refine Event.trans ?_ (State.rebuildPositions_event _)
  exact (h2.trans (State.evaluateThermal_event _)).trans (State.adjustSlide_calm _).event

theorem State.makePending_event (b : Bool) (s : State) : Event s (s.makePending b) := by
  unfold State.makePending
  split
  · exact State.switchTo_event _ _ _ s
  · exact .refl s

/-! ### Computations and demands -/

theorem State.computeStages_event (b : Bool) (s : State) : Event s (s.computeStages b) := by
  unfold State.computeStages
  simp only
  split
  · exact (State.withBlender_calm s _).event.trans (State.takeTrigger_event _ _)
  · exact (State.withBlender_calm s _).event

theorem State.compute_event (s : State) : Event s s.compute := by
  unfold State.compute
  simp only
  refine Event.trans ?_ (State.emitControl_event _)
  refine Event.trans ?_ (State.computeStages_event _ _)
  split
  · exact State.makePending_event _ s
  · exact .refl s

theorem State.writeDemand_event (m : Mark) (p : DemandPayload) (s : State) : Event s (s.writeDemand m p) := by
  unfold State.writeDemand
  simp only
  split
  · exact (State.withControl_calm s _).event.trans (State.takeTrigger_event _ _)
  · exact (State.withControl_calm s _).event

theorem State.demandWork_event (s : State) : Event s s.demandWork.1 := by
  unfold State.demandWork
  simp only
  split
  · exact State.emitStandby_event s
  · dsimp only; exact State.compute_event s
  · dsimp only; exact State.compute_event s
  · split
    · dsimp only
      refine Event.trans ?_ (State.compute_event _)
      exact (State.withControl_calm s _).event
    · exact .refl s

theorem State.takeDemand_event (m : Mark) (p : DemandPayload) (s : State) : Event s (s.takeDemand m p) :=
  (((State.writeDemand_event m p s).trans (State.withControl_calm _ _).event).trans (State.demandWork_event _)).trans
    (State.takeSample_event _ _ _)

/-- The first expiry up to the change of part state. -/
theorem State.demandLostWork_event (d : LinkTime) (s : State) :
    Event s (((s.withTimer (.repeating (d + 20))).setFlag .demandLost).takeTrigger .demandLost) := by
  refine Event.trans ?_ (State.takeTrigger_event _ _)
  refine Event.trans ?_ (State.setFlag_calm _ _).event
  exact (State.withControl_calm s _).event

theorem State.demandLost_event (d : LinkTime) (s : State) : Event s (s.demandLost d) := by
  have h := State.demandLostWork_event d s
  unfold State.demandLost
  generalize ((s.withTimer (.repeating (d + 20))).setFlag .demandLost).takeTrigger .demandLost = u at h
  have k : ∀ c, Event s { u with control := c } := fun c => h.trans (State.withControl_calm u c).event
  dsimp only
  split
  · exact (k _).trans (State.enterFallback_event _)
  · exact (k _).trans (State.enterFallback_event _)
  · exact k _

theorem State.demandRepeat_event (d : LinkTime) (s : State) : Event s (s.demandRepeat d) := by
  unfold State.demandRepeat
  simp only
  split
  · exact ((State.withControl_calm s _).event.trans (State.compute_event _)).trans (State.takeSample_event _ _ _)
  · exact (State.withControl_calm s _).event.trans (State.takeSample_event _ _ _)

/-! ### Record store -/

theorem State.readStep_event (i n : Nat) (keep : Bool) (r : ReadStep) (s : State) : Event s (s.readStep i n keep r) := by
  unfold State.readStep
  split
  · refine Event.trans ?_ (State.answerLong_event _ _ _)
    exact State.withStore_event ⟨rfl, rfl, Nat.le_refl _, Nat.le_refl _, rfl⟩
  · exact State.withStore_event ⟨rfl, rfl, Nat.le_refl _, Nat.le_refl _, rfl⟩

theorem State.judgeReadRecord_event (i n : Nat) (keep : Bool) (s : State) : Event s (s.judgeReadRecord i n keep) :=
  State.readStep_event _ _ _ _ s

theorem State.withJob_event (s : State) (j : Option StoreJob) : Event s (s.withStore { s.store with job := j }) :=
  State.withStore_event ⟨rfl, rfl, Nat.le_refl _, Nat.le_refl _, rfl⟩

theorem State.judgeReadNext_event (s : State) : Event s s.judgeReadNext := by
  unfold State.judgeReadNext
  split
  · exact (State.withJob_event s none).trans (State.answerLong_event _ _ _)
  · exact State.readStep_event _ _ _ _ s

theorem State.judgeListRecords_event (n : Nat) (s : State) : Event s (s.judgeListRecords n) :=
  (State.withJob_event s none).trans (State.answerLong_event _ _ _)

theorem State.finishClear_event (s : State) : Event s s.finishClear := by
  unfold State.finishClear
  split
  · exact (State.withJob_event s none).trans (State.answerLong_event _ _ _)
  · exact .refl s

theorem Store.clear_tables (t : Store) (k : Nat) : TablesOnly t (t.clear k) := by
  have h : ∀ (l : List Nat) (u : Store), TablesOnly u (l.foldl Store.queueErase u) := by
    intro l
    induction l with
    | nil => exact .refl
    | cons i l ih => exact fun u => (Store.queueErase_tables u i).trans (ih _)
  have h1 := (Store.removeEntries_tables t (fun e => !t.isProtected k e)).trans (h
    ((t.removeEntries (fun e => !t.isProtected k e)).clearable k) _)
  exact ⟨h1.pages, h1.retireMarks, h1.queue, h1.pins, h1.scan⟩

theorem State.judgeClear_event (s : State) : Event s s.judgeClear := by
  unfold State.judgeClear
  split
  · exact (State.withJob_event s none).trans (State.answerLong_event _ _ _)
  · exact (State.withStore_event (Store.clear_tables _ _)).trans (State.finishClear_event _)

theorem State.takeWaiting_event (s : State) : Event s s.takeWaiting := by
  unfold State.takeWaiting
  split
  · exact State.judgeReadRecord_event _ _ _ s
  · exact State.judgeReadNext_event s
  · exact State.judgeListRecords_event _ s
  · exact State.judgeClear_event s
  · exact .refl s

/-! ### Orders -/

theorem calm_capture {s t : State} (h : t = { s with capture := t.capture })
    (hr : t.capture.ring = s.capture.ring) : Calm s t := by
  refine ⟨?_, ?_, ?_, ?_, hr, ?_, ?_, ?_, ?_⟩ <;> rw [h]
  exact id

theorem State.checkStaged_calm (t : TableSet) (s : State) : Calm s (s.checkStaged t) :=
  (State.withTables_calm s _).trans (State.setFlagIf_calm _ _ _)

theorem State.loadInto_calm (t : TableSet) (x : Sect) (start count last : U8) (items : Bytes) (s : State) :
    Calm s (s.loadInto t x start count last items).state := by
  unfold State.loadInto
  simp only
  split
  · exact State.withTables_calm s _
  · exact State.checkStaged_calm _ s

theorem State.setChannel_calm (c : Channel) (e : ChannelEntry) (s : State) : Calm s (s.setChannel c e) := by
  cases c <;> exact State.withControl_calm s _

theorem State.abortFor_event (c : Channel) (s : State) : Event s (s.abortFor c) := by
  unfold State.abortFor
  split
  · split
    · exact State.abortCalibration_event _ s
    · exact .refl s
  · exact .refl s

theorem State.release_event (s : State) : Event s s.release :=
  (State.enterStandby_calm s).event.trans (State.makePending_event _ _)

theorem State.clearCounts_event (s : State) :
    Event s { s with ports := ⟨s.ports.cab.clearCounts, s.ports.drive.clearCounts⟩ } :=
  event_of_ports (by rfl) (by rfl) (fun p h => by cases p <;> exact h) (fun x => x)

theorem State.setModeOrder_event (channel mode : U8) (s : State) : Event s (s.setModeOrder channel mode).state := by
  unfold State.setModeOrder
  split
  · exact .refl s
  · rename_i c _
    refine (State.abortFor_event c s).trans ?_
    unfold State.judgeMode
    split
    · exact .refl _
    · exact .refl _
    · split
      · exact .refl _
      · split
        · exact .refl _
        · split
          · exact .refl _
          · exact (State.setChannel_calm _ _ _).event

theorem State.loadOrder_event (sect start count last : U8) (items : Bytes) (s : State) :
    Event s (s.loadOrder sect start count last items).state := by
  unfold State.loadOrder
  simp only
  split
  · exact .refl s
  · exact .refl s
  · split
    · exact .refl s
    · split
      · exact .refl s
      · split
        · exact .refl s
        · exact ((State.dropFlag_calm _ s).trans (State.loadInto_calm _ _ _ _ _ _ _)).event
  · split
    · exact .refl s
    · split
      · exact .refl s
      · split
        · exact .refl s
        · exact (State.loadInto_calm _ _ _ _ _ _ _).event

theorem State.acceptOrder_event (s : State) : Event s s.acceptOrder.state := by
  unfold State.acceptOrder
  split
  · exact .refl s
  · split
    · dsimp only [State.answers]; exact State.switchTo_event _ _ _ s
    · exact (State.withTables_calm s _).event
  · exact .refl s

theorem State.pinRecordOrder_event (i : U32) (s : State) : Event s (s.pinRecordOrder i).state := by
  unfold State.pinRecordOrder
  simp only
  split
  · exact .refl s
  · split
    · exact .refl s
    · split
      · exact .refl s
      · split
        · exact .refl s
        · rename_i hl
          refine Event.trans ?_ (State.runStore_event _)
          refine ⟨rfl, rfl, rfl, rfl, rfl, rfl, id, id, fun _ => ?_, fun _ => id, id, id⟩
          simp only [State.withStore_store, List.length_append, List.length_cons, List.length_nil]
          omega

theorem State.unpinRecordOrder_event (i : U32) (s : State) : Event s (s.unpinRecordOrder i).state := by
  unfold State.unpinRecordOrder
  simp only
  split
  · exact .refl s
  · split
    · exact .refl s
    · split
      · exact .refl s
      · refine Event.trans ?_ (State.runStore_event _)
        exact State.withStore_event ⟨rfl, rfl, Nat.le_refl _, List.length_filter_le _ _, rfl⟩

/-- All that a short order's owner can do, but for its own effect. -/
theorem State.shortOrder_event (n : OrderName) (args : Bytes) (s : State) : Event s (s.shortOrder n args).state := by
  unfold State.shortOrder
  split
  · unfold State.linkCountsOrder; simp only; split
    · exact .refl s
    · exact State.clearCounts_event s
  · unfold State.inquireSourceOrder; split <;> exact .refl s
  · unfold State.engageOrder; split
    · split
      · exact (State.enterFromStandby_calm _ s).event
      · exact .refl s
    · exact .refl s
  · unfold State.releaseControlOrder; split
    · split
      · exact State.release_event s
      · exact .refl s
    · exact State.release_event s
    · exact .refl s
  · unfold State.enterMaintOrder; split
    · split
      · exact .refl s
      · split
        · exact .refl s
        · exact (State.enterFromStandby_calm _ s).event
    · exact .refl s
  · unfold State.leaveMaintOrder; split
    · exact (State.leaveMaintenance_event s).trans (State.enterStandby_calm _).event
    · exact .refl s
  · exact State.setModeOrder_event _ _ s
  · unfold State.setValueOrder; split
    · exact .refl s
    · simp only; split
      · exact (State.setChannel_calm _ _ s).event
      · exact .refl s
  · unfold State.inquireChannelOrder; split <;> exact .refl s
  · exact .refl s
  · unfold State.inquireBlendOrder; split <;> exact .refl s
  · unfold State.clearAttentionOrder; split
    · exact .refl s
    · exact (State.withSlide_calm s _).event
  · exact .refl s
  · exact .refl s
  · exact State.loadOrder_event _ _ _ _ _ s
  · exact State.acceptOrder_event s
  · unfold State.rejectOrder; split
    · exact (State.withTables_calm s _).event
    · exact .refl s
  · unfold State.abandonOrder; split
    · exact (State.withTables_calm s _).event
    · exact .refl s
  · unfold State.readTableOrder; split
    · exact .refl s
    · split
      · exact .refl s
      · exact .refl s
      · split <;> exact .refl s
  · exact .refl s
  · unfold State.loadProfileOrder; split
    · exact .refl s
    · split
      · exact .refl s
      · split
        · exact .refl s
        · exact ((State.dropFlag_calm _ s).trans (State.checkStaged_calm _ _)).event
  · unfold State.armOrder; split
    · exact .refl s
    · exact (calm_capture (by rfl) (by rfl)).event
  · unfold State.disarmOrder; split
    · exact .refl s
    · exact (calm_capture (by rfl) (by rfl)).event
  · unfold State.triggerOrder; split
    · exact .refl s
    · exact State.takeTrigger_event _ s
  · unfold State.readRingOrder; split
    · exact .refl s
    · simp only; split <;> exact .refl s
  · unfold State.inquireRecorderOrder; simp only; split
    · exact .refl s
    · exact (calm_capture (by rfl) (by rfl)).event
  · exact State.pinRecordOrder_event _ s
  · exact State.unpinRecordOrder_event _ s
  · exact .refl s
  · exact .refl s
  · unfold State.clearFaultsOrder; split
    · exact .refl s
    · exact (calm_orders (by rfl) (by rfl) (by exact id)).event
  · refine (calm_orders (by rfl) (by rfl) ?_).event
    intro _ p hp
    obtain ⟨q, _, e⟩ := List.mem_map.mp hp
    rw [← e]
  all_goals exact .refl s

theorem State.longOrder_event (n : OrderName) (args : Bytes) (pid : Nat) (tag : U8) (s : State) :
    Event s (s.longOrder n args pid tag) := by
  unfold State.longOrder
  split
  · unfold State.calibrateOrder; split
    · exact State.answerLong_event _ _ s
    · split
      · exact State.answerLong_event _ _ s
      · exact State.startCalibration_event _ _ _ s
  · unfold State.saveProfileOrder; split
    · exact State.answerLong_event _ _ s
    · exact (State.withTables_calm s _).event
  · unfold State.readRecordOrder; split
    · refine Event.trans (State.withStore_event (u := { s.store with cursor := none }) ?_) (State.answerLong_event _ _ _)
      exact ⟨rfl, rfl, Nat.le_refl _, Nat.le_refl _, rfl⟩
    · split
      · exact State.withJob_event s _
      · exact (State.judgeReadRecord_event _ _ _ s).trans (State.runStore_event _)
  · unfold State.readNextOrder; split
    · exact State.withJob_event s _
    · exact (State.judgeReadNext_event s).trans (State.runStore_event _)
  · unfold State.listRecordsOrder; split
    · exact State.withJob_event s _
    · exact State.judgeListRecords_event _ s
  · unfold State.clearStoreOrder; split
    · exact State.withJob_event s _
    · exact (State.judgeClear_event s).trans (State.runStore_event _)
  · exact .refl s

theorem State.takeOrder_event (pid : Nat) (tag code : U8) (args : Bytes) (s : State) :
    Event s (s.takeOrder pid tag code args) := by
  unfold State.takeOrder
  split
  · exact State.handOver_event _ _ s
  · split
    · exact State.handOver_event _ _ s
    · split
      · unfold State.askSlot; split
        · exact State.handOver_event _ _ s
        · refine Event.trans ?_ (State.longOrder_event _ _ _ _ _)
          exact (calm_orders (by rfl) (by rfl) (by exact id)).event
      · exact ((State.shortOrder_event _ _ s).trans (State.report_event _)).trans (State.handOver_event _ _ _)

theorem State.settleStep_event {s t : State} (e : s.settleStep = some t) : Event s t := by
  unfold State.settleStep at e
  split at e
  · cases e
    unfold State.placeDeferred
    split
    · exact .refl s
    · refine Event.trans ?_ (State.handOver_event _ _ _)
      exact State.mapPosition_event _ _ s (fun _ x => x)
  · split at e
    · cases e
      unfold State.takeHeld
      split
      · exact .refl s
      · refine Event.trans ?_ (State.takeOrder_event _ _ _ _ _)
        exact State.mapPosition_event _ _ s (fun _ _ => rfl)
    · simp only [Option.map_eq_some_iff] at e
      obtain ⟨p, _, rfl⟩ := e
      exact (calm_orders (by rfl) (by rfl) (fun x => (State.endDeparting_noHeld p x).1)).event

theorem State.settleLoop_event (n : Nat) (s : State) : Event s (s.settleLoop n) := by
  induction n generalizing s with
  | zero => exact .refl s
  | succ n ih =>
    unfold State.settleLoop
    split
    · exact .refl s
    · rename_i t ht
      exact (State.settleStep_event ht).trans ((State.report_event t).trans (ih _))

theorem State.finish_event (s : State) : Event s s.finish := (State.report_event s).trans (State.settleLoop_event 64 _)

theorem State.whenRunning_event {f : State → State} (s : State) (h : Event s (f s)) : Event s (s.whenRunning f) := by
  unfold State.whenRunning
  split
  · exact h.trans (State.finish_event _)
  · exact .refl s

/-! ### Arrivals -/

/-- What an arrival from the link keeps: an ORDER may come to be held, beyond what events keep. -/
structure Arrival (s t : State) : Prop where
  pending : t.pending = s.pending
  phase : t.phase = s.phase
  time : t.time = s.time
  restarts : t.orders.restarts = s.orders.restarts
  pages : t.store.pages = s.store.pages
  marks : t.store.retireMarks = s.store.retireMarks
  ring : s.capture.ring.length ≤ Config.ringSize → t.capture.ring.length ≤ Config.ringSize
  queue : s.store.queue.length ≤ Config.commitQueue → t.store.queue.length ≤ Config.commitQueue
  pins : s.store.pins.length ≤ Config.pinListSize → t.store.pins.length ≤ Config.pinListSize
  ports : ∀ p, (s.port p).bounded → (t.port p).bounded
  heat : s.capability.heat ≤ 999999 → t.capability.heat ≤ 999999

theorem Event.arrival {s t : State} (h : Event s t) : Arrival s t :=
  ⟨h.pending, h.phase, h.time, h.restarts, h.pages, h.marks, h.ring, h.queue, h.pins, h.ports, h.heat⟩

theorem Arrival.refl (s : State) : Arrival s s := (Event.refl s).arrival

theorem Arrival.trans {s t u : State} (h : Arrival s t) (k : Arrival t u) : Arrival s u :=
  ⟨k.pending.trans h.pending, k.phase.trans h.phase, k.time.trans h.time, k.restarts.trans h.restarts,
    k.pages.trans h.pages, k.marks.trans h.marks, fun x => k.ring (h.ring x), fun x => k.queue (h.queue x),
    fun x => k.pins (h.pins x), fun p x => k.ports p (h.ports p x), fun x => k.heat (h.heat x)⟩

theorem Arrival.orders {s t : State} (h : t = { s with orders := t.orders })
    (hr : t.orders.restarts = s.orders.restarts) : Arrival s t := by
  refine ⟨?_, ?_, ?_, hr, ?_, ?_, ?_, ?_, ?_, ?_, ?_⟩
  all_goals rw [h]
  all_goals first | exact id | exact fun _ => id

theorem State.orderArrives_arrival (entry : Nat) (tag code : U8) (args : Bytes) (s : State) :
    Arrival s (s.orderArrives entry tag code args) := by
  unfold State.orderArrives
  split
  · exact .refl s
  · split
    · exact .refl s
    · split
      · exact Arrival.orders (by rfl) (by rfl)
      · exact (State.takeOrder_event _ _ _ _ s).arrival

theorem State.whenRunning_arrival {f : State → State} (s : State) (h : Arrival s (f s)) :
    Arrival s (s.whenRunning f) := by
  unfold State.whenRunning
  split
  · exact h.trans (State.finish_event _).arrival
  · exact .refl s

theorem State.order_arrival (o : Origin) (n : OrderName) (args : Bytes) (s : State) : Arrival s (s.order o n args) :=
  State.whenRunning_arrival s (State.orderArrives_arrival _ _ _ _ s)

/-! ### Telegrams received -/

theorem State.deliver_arrival (r : Role) (entry : Nat) (m : Mark) (t : Telegram) (s : State) :
    Arrival s (s.deliver r entry m t) := by
  unfold State.deliver
  split
  · exact .refl s
  · exact (State.takeDemand_event _ _ s).arrival
  · exact (State.takeSpeed_event _ s).arrival
  · exact (State.takeEffortReport_calm _ _ s).event.arrival
  · exact (State.takeEffortReport_calm _ _ s).event.arrival
  · exact (State.takePressure_event _ _ s).arrival
  · exact State.orderArrives_arrival _ _ _ _ s

theorem State.sourceArrival_arrival (entry : Nat) (t : Telegram) (across : Option Port) (s : State) :
    Arrival s (s.sourceArrival entry t across) := by
  unfold State.sourceArrival
  split
  · exact .refl s
  · split
    · exact (State.withSources_calm s _).event.arrival
    · split
      · exact (State.withSources_calm s _).event.arrival
      · simp only
        refine Arrival.trans ?_ (State.deliver_arrival _ _ _ _ _)
        split
        · exact ((State.withSources_calm s _).event.trans (State.forward_event _ _ _)).arrival
        · exact (State.withSources_calm s _).event.arrival

theorem State.classify_arrival (p : Port) (t : Telegram) (s : State) : Arrival s (s.classify p t) := by
  have hu : Arrival s (s.withPort p (s.port p).countUnauthorised) := (State.withPort_event _ _ (by exact id)).arrival
  unfold State.classify
  split
  · unfold State.classifyOwn; simp only; split
    · exact hu
    · split
      · exact State.sourceArrival_arrival _ _ _ s
      · exact hu
  · split
    · unfold State.classifyMatched; simp only; split
      · exact (State.forward_event _ _ s).arrival
      · split
        · exact (State.forward_event _ _ s).arrival
        · exact State.sourceArrival_arrival _ _ _ s
      · split
        · exact .refl s
        · exact State.sourceArrival_arrival _ _ _ s
      · exact .refl s
    · unfold State.classifyUnmatched; split
      · exact (State.forward_event _ _ s).arrival
      · exact .refl s

theorem State.receive_arrival (p : Port) (rx : Received) (s : State) : Arrival s (s.receive p rx) := by
  unfold State.receive
  split
  · exact State.classify_arrival _ _ s
  · refine Arrival.trans ?_ (State.setFlag_calm _ _).event.arrival
    exact (State.withPort_event _ _ (by exact id)).arrival

theorem State.fromRole_arrival (r : Role) (dest seq : U8) (payload : Bytes) (s : State) :
    Arrival s (s.fromRole r dest seq payload) := by
  unfold State.fromRole
  split
  · exact .refl s
  · exact State.classify_arrival _ _ s

/-! ### The other events -/

theorem State.transmissionEnds_event (p : Port) (s : State) : Event s (s.transmissionEnds p) := by
  unfold State.transmissionEnds
  split
  · exact .refl s
  · refine Event.trans (State.withPort_event p { s.port p with tx := none } ?_) (State.startTx_event p _)
    exact id

theorem State.staleExpires_event (entry : Nat) (s : State) : Event s (s.staleExpires entry) := by
  unfold State.staleExpires
  split
  · exact .refl s
  · exact (State.withSources_calm s _).event.trans (State.reportStale_event _ _)

theorem State.saveEnds_event (r : SaveRecord) (agrees : Bool) (s : State) : Event s (s.saveEnds r agrees) := by
  unfold State.saveEnds
  simp only
  split
  · exact (State.withTables_calm s _).event.trans (State.answerLong_event _ _ _)
  · split
    · exact (State.withTables_calm s _).event.trans (State.answerLong_event _ _ _)
    · exact ((State.withTables_calm s _).trans (State.setFlagIf_calm _ _ _)).event.trans (State.answerLong_event _ _ _)

theorem State.scanEnds_event (s : State) : Event s s.scanEnds := by
  unfold State.scanEnds
  split
  · have h := Store.judgeReclaim_tables s.store.scanDone s.retention
    refine Event.trans (Event.trans ?_ (State.takeWaiting_event _)) (State.runStore_event _)
    exact ⟨rfl, rfl, rfl, rfl, h.pages, h.retireMarks, id, fun x => Nat.le_trans h.queue x,
      fun x => Nat.le_trans h.pins x, fun _ => id, id, id⟩
  · exact .refl s

theorem State.pageReadEnds_event (s : State) : Event s s.pageReadEnds := by
  unfold State.pageReadEnds
  split
  · exact ((State.withStore_event (Store.withOp_tables _ _)).trans (State.readStep_event _ _ _ _ _)).trans
      (State.runStore_event _)
  · exact .refl s

end Sys2Proof.Machine
end

