-- ==== Sys2Proof/Laws/Completion.lean ====
section
/-!
SUPPORT. How a command completes: an accepted data telegram reaches its consumer, a long order is answered at once or
waits in the slot, and the recorder's work stands still when there is nothing to start. Statements about single
commands reach `exec` through these lemmas and those of Laws/Orders.lean.
-/

namespace Sys2Proof.Machine

theorem State.position_pid {s : State} {pid : Nat} {p : Position} (h : s.position pid = some p) : p.pid = pid := by
  have := List.find?_some h
  simpa using this

/-! ### Data telegrams -/

theorem State.accepted_held {s : State} (x : SourceRecord) (dest seq : U8) (payload : Bytes) (m : Mark)
    (h : s.noHeld) : (s.accepted x dest seq payload m).noHeld := by
  unfold State.accepted
  split
  · exact Cleared.noHeld (State.forward_cleared _ _ _) h
  · exact h

theorem State.accepted_phase (s : State) (x : SourceRecord) (dest seq : U8) (payload : Bytes) (m : Mark) :
    (s.accepted x dest seq payload m).phase = s.phase := by
  unfold State.accepted
  split
  · exact (State.forward_reportOnly _ _ _).phase
  · rfl

/-- A data command whose telegram is accepted is the consumer's work on the part as the source monitor left it. -/
theorem accepts_delivers {s : State} {x : SourceRecord} {dest seq : U8} {payload : Bytes} {m : Mark}
    (h : Accepts s x dest seq payload m) (ho : x.role ≠ .order) :
    s.whenRunning (State.fromRole x.role dest seq payload)
      = ((s.accepted x dest seq payload m).deliver x.role x.entry m (x.telegram dest seq payload)).finish := by
  have hk : ∀ across, s.sourceArrival x.entry (x.telegram dest seq payload) across
      = State.deliver x.role x.entry m (x.telegram dest seq payload)
          (match across with
            | some p => (s.mapSource x.entry
                (fun y => y.accept seq m s.time (s.tbl.entry x.entry).staleTimeout)).forward p (x.telegram dest seq payload)
            | none => s.mapSource x.entry (fun y => y.accept seq m s.time (s.tbl.entry x.entry).staleTimeout)) := by
    intro across
    have hs : (x.telegram dest seq payload).seq = seq := rfl
    simp only [State.sourceArrival, h.entry, h.content, hs, h.mark]
    cases across <;> rfl
  have hc : State.fromRole x.role dest seq payload s = s.classifyMatched x.key.port x.entry (x.telegram dest seq payload) := by
    have e : Telegram.form dest x.key.source (x.role.kind.getD x.key.kind) seq payload = x.telegram dest seq payload := rfl
    have hd : ((x.telegram dest seq payload).dest = s.node) = False := by simpa [SourceRecord.telegram, Telegram.form] using h.notOurs
    simp only [State.fromRole, h.record, e, State.classify, hd, if_false, h.key]
  have hn : x.role ≠ .none := by
    intro e
    have := h.content
    simp [contentOk, e, Role.kind] at this
  have hp : ((s.tbl.entry x.entry).roleOf == .none || (x.telegram dest seq payload).kind == kindOrder) = false := by
    have hk : (x.telegram dest seq payload).kind = x.role.kind.getD x.key.kind := rfl
    rw [h.role, hk]
    revert hn ho
    cases x.role <;> simp [Role.kind, kindDemand, kindSpeed, kindEffort, kindPressure, kindOrder]
  simp only [State.whenRunning, h.running, if_true, hc, State.classifyMatched, hp, Bool.false_eq_true, if_false]
  rcases h.action with ha | ha <;> simp only [ha, hk, State.accepted]
  · simp
  · simp

/-! ### Long orders -/

/-- A long order that its owner answers at once frees the slot, and its reply is handed over. -/
theorem order_answered_long {s : State} {o : Origin} {p : Position} (h : Ready s o p) (n : OrderName) (args : Bytes)
    (hs : n.isLong = true) (ha : n.argBytes ≤ args.length) (hf : s.orders.slot = none) {u : State} {res : Result}
    {d : ReplyData}
    (he : State.longOrder n args p.pid o.tag { s with orders := { s.orders with slot := some ⟨n, o.tag, p.pid⟩ } }
      = u.answerLong res d)
    (hu : u.orders.slot = some ⟨n, o.tag, p.pid⟩) (hp : u.orders.positions = s.orders.positions) :
    Handed p ⟨o.tag, n.code, res, d⟩ { u with orders := { u.orders with slot := none } } (s.order o n args) := by
  rw [order_takes_slot h n args hs ha hf, he]
  simp only [State.answerLong, hu]
  refine State.handOver_finish _ ?_ rfl h.clear ?_
  · simpa [State.position, hp] using h.number
  · simpa [State.quiet, hp] using h.quiet

/-- The answer of the long order that waits in the slot. -/
theorem waiting_answered {s : State} {l : LongOrder} {p : Position} (h : Waiting s l p) {u : State} (res : Result)
    (d : ReplyData) (hu : u.orders.slot = some l) (hp : u.orders.positions = s.orders.positions) :
    Handed p ⟨l.tag, l.name.code, res, d⟩ { u with orders := { u.orders with slot := none } }
      (u.answerLong res d).finish := by
  simp only [State.answerLong, hu]
  refine State.handOver_finish _ ?_ (State.position_pid h.number) h.clear ?_
  · simpa [State.position, hp] using h.number
  · simpa [State.quiet, hp] using h.quiet

/-! ### The recorder at rest -/

theorem Store.judgeReclaim_room {t : Store} (k : Nat) (h : 2 ≤ t.roomBanks) : t.judgeReclaim k = t := by
  unfold Store.judgeReclaim Store.reclaim
  simp [h]

theorem State.storeStill.runStore {s : State} (h : s.storeStill) : s.runStore = s := by
  have hb : State.buildPages 4 s = s := by unfold State.buildPages; rw [h.record]
  have hd : s.store.dispatch s.retention = (s.store, false) := by
    unfold Store.dispatch
    rw [Store.judgeReclaim_room _ h.room]
    unfold Store.arbiter
    split
    · rfl
    · rename_i hn
      simp only [not_or, Decidable.not_not] at hn
      rcases h.nothing with k | k | ⟨k0, k1, k2⟩
      · exact absurd hn.1 k
      · exact absurd k hn.2
      · simp only [k0, List.isEmpty_nil, if_true]
        unfold Store.startOther
        rw [k1]
        split
        · rename_i w hw; exact absurd hw (k2 _)
        · rename_i h2 _; cases h2
        · rfl
  unfold State.runStore State.storeWork
  simp [hb, hd, State.setFlagIf]
  rfl

end Sys2Proof.Machine
end

