-- ==== Sys2Proof/Tests/Slice0.lean ====
section
/-!
SUPPORT. The model's own tests: ill-formed operands refused, the worked examples of the spec, one step of each family,
and for every statement with hypotheses a concrete state that meets them, clause by clause.
-/

open Sys2Proof Sys2Proof.Machine

namespace Sys2Proof.Tests

/-! ### WellFormed: what each check refuses -/

theorem test_received_too_long : Instr.wellFormed (.telegramReceived .cab (.whole (List.replicate 72 0))) = false := by
  decide
theorem test_received_longest : Instr.wellFormed (.telegramReceived .cab (.whole (List.replicate 71 0))) = true := by
  decide
theorem test_truncated_too_long :
    Instr.wellFormed (.telegramReceived .drive (.truncated (List.replicate 72 0))) = false := by decide
theorem test_load_too_long : Instr.wellFormed (.load ⟨1, 0⟩ 1 0 1 0 (List.replicate 59 0)) = false := by decide
theorem test_cut_page_not_bad :
    Instr.wellFormed (.powerOn ⟨.bad (List.replicate 590 0xFF), none, 0, .corrupted⟩) = false := by decide +kernel
theorem test_cut_page_short : Instr.wellFormed (.resetInput ⟨.bad [1], none, 0, .corrupted⟩) = false := by decide
theorem test_cut_next_written : Instr.wellFormed (.powerLoss ⟨.whole, some 0xFD, 0, .corrupted⟩) = false := by decide
theorem test_cut_next_broken : Instr.wellFormed (.restartReset ⟨.whole, some 0x55, 0, .corrupted⟩) = true := by decide
theorem test_commit_next_written : Instr.wellFormed (.commitEnd (.agrees (some 3))) = false := by decide
theorem test_commit_page_short : Instr.wellFormed (.commitEnd (.mismatch (List.replicate 589 0))) = false := by
  decide +kernel
theorem test_erase_left_erased : Instr.wellFormed (.eraseEnd [(3, List.replicate 590 0xFF)]) = false := by
  decide +kernel
theorem test_erase_left_beyond : Instr.wellFormed (.eraseEnd [(64, List.replicate 590 0)]) = false := by decide +kernel
theorem test_erase_left_falls :
    Instr.wellFormed (.eraseEnd [(5, List.replicate 590 0), (5, List.replicate 590 1)]) = false := by decide +kernel

/-! ### Worked examples of the spec -/

/-- Section 3.1.1. -/
theorem test_curve_examples :
    [0, 750, 1500, 7000, 7001, 12000, 16000].map factorySet.curve = [0, 200, 575, 675, 675, 384, 250] := by decide

/-- Section 3.4.1, samples 1 and 2. -/
theorem test_heat_example :
    let c0 : Capability := { Capability.reset with heat := 180000, thermal := .derate }
    let c1 := c0.heatStep 2000 1496 1500 10
    let c2 := c1.heatStep 2000 1496 1500 10
    (c1.heat, c1.remIn, c1.remCool) = (179986, 840000, 0) ∧ (c2.heat, c2.remIn) = (179972, 1680000)
      ∧ derate factorySet.thermal .derate c1.heat = 716 ∧ derate factorySet.thermal .derate c2.heat = 717 := by
  decide

/-- Sections 4.11.1 and 4.11.2: the passes of cases A and B. -/
theorem test_water_filling_cases :
    waterFill 1550 ⟨360, 360, 360, 360, 300, 0⟩ = ⟨313, 313, 312, 312, 300, 0⟩
      ∧ waterFill 2100 ⟨373, 373, 78, 372, 300, 0⟩ = ⟨373, 373, 78, 372, 300, 0⟩ := by decide

/-- Sections 4.11.2, 4.11.3 and 4.11.4: air effort, placement and pressure of cases B, C and D. -/
theorem test_air_cases :
    factoryTruck.pressureFor 302 450 = 71 ∧ factoryTruck.airEffort 71 = 310
      ∧ Machine.placeAir 4900 true true 4100 800 = ⟨4100, 800⟩ ∧ factoryTruck.pressureFor 4100 450 = 450
      ∧ factoryTruck.pressureFor 800 120 = 120 ∧ factoryTruck.airEffort 150 = 1100 := by decide

/-- Section 5.10.1, samples 1 to 3 and 8. -/
theorem test_slide_example :
    let j := fun last => (⟨factoryAdhesion, 1000, last, 1500, 5000⟩ : JudgeOn)
    let x0 : SlideRecord := ⟨.adhered, 1000, 0, 0, 0, none, none, none⟩
    let x1 := x0.judge (j 312) (some 1350)
    let x2 := x1.judge (j 156) (some 1380)
    let x3 := x2.judge (j 78) (some 1460)
    let x8 := ({ x3 with consecutive := 4, limit := 238 } : SlideRecord).judge (j 78) (some 1495)
    (x1.state, x1.limit, x1.relCreep) = (.sliding, 156, some 100) ∧ (x2.state, x2.limit) = (.sliding, 78)
      ∧ (x3.state, x3.limit, x3.relCreep) = (.recovering, 78, some 26) ∧ (x8.state, x8.limit) = (.adhered, 1000) := by
  decide

/-- The CRC-16 of R3 over the nine digits, a common check value of this generator and initial value (PRESUMED: from
outside the spec). -/
theorem test_crc_digits : crc16 [0x31, 0x32, 0x33, 0x34, 0x35, 0x36, 0x37, 0x38, 0x39] = 0x29B1 := by decide +kernel

/-- The factory set passes every check (R138). -/
theorem test_factory_set_passes : factorySet.check = none := by decide +kernel

/-! ### Words: no row of the table has bits -/

theorem test_no_word : decodeTableWord 8 0 = none ∧ State.reset.withFetchWord 8 0 = State.reset := ⟨rfl, rfl⟩

/-! ### States for the witnesses -/

/-- The part running after reset, with the scan over. -/
def base : State := { State.reset with phase := .running, store := { Store.blank with scan := .done } }

/-- The management source of the factory set, and its reply position. -/
def src : Origin := ⟨1, 9⟩
def pos : Position := ⟨0, 1, ⟨.cab, 2, 0x40⟩, false, none, none, 0, false, false⟩

theorem base_positions : base.orders.positions = [pos] := by decide

theorem noHeld_of {s : State} (h : s.orders.positions = [pos]) : s.noHeld := by
  intro p hp; rw [h] at hp; simp only [List.mem_singleton] at hp; subst hp; rfl

theorem quiet_of {s : State} (h : s.orders.positions = [pos]) : s.quiet := by
  intro p hp; rw [h] at hp; simp only [List.mem_singleton] at hp; subst hp; exact ⟨rfl, rfl, rfl⟩

theorem ready_of {s : State} (h1 : s.phase = .running) (h2 : s.orders.restarting = false)
    (h3 : s.orders.positions = [pos]) : Ready s src pos :=
  ⟨h1, h2, by unfold State.entryPosition; rw [h3]; decide, by unfold State.position; rw [h3]; decide, rfl, quiet_of h3⟩

theorem waiting_of {s : State} (l : LongOrder) (h1 : s.phase = .running) (h2 : s.orders.slot = some l)
    (h3 : s.orders.positions = [pos]) (h4 : l.pid = 0) : Waiting s l pos :=
  ⟨h1, h2, by unfold State.position; rw [h3, h4]; decide, rfl, quiet_of h3⟩

theorem still_of {s : State} (h1 : s.capture.record = none) (h2 : s.store.queue = []) (h3 : 2 ≤ s.store.roomBanks)
    (h4 : s.store.erases = []) (h5 : s.store.job = none) : s.storeStill :=
  ⟨h1, h3, .inr (.inr ⟨h2, h4, fun w h => by rw [h5] at h; cases h⟩)⟩

/-- The base state in a part state, with a demand record. -/
def inState (p : PartState) : State := { base with control := { base.control with partState := p } }

/-- A source record of the base state, FRESH with sequence 0, its deadline at a link time. -/
def freshened (r : Role) (d : LinkTime) (s : State) : State :=
  { s with
    sources := s.sources.map (fun x =>
      if x.role == r then { x with freshness := .fresh, lastSeq := some 0, lastArrival := some 0, deadline := some d }
      else x) }


/-- Nothing waits at a reply position when the positions are those of the base state. -/
def held (s : State) : Prop := s.phase = .running ∧ s.noHeld

/-- A telegram for another node, and a state in which both transmitters are busy with it. -/
def other : Telegram := Telegram.form 99 5 0x33 0 []
def onLine (q : PortState) : PortState := { q with tx := some (.forwarded other) }
def busy (s : State) : State := { s with ports := ⟨onLine s.ports.cab, onLine s.ports.drive⟩ }

/-- A demand record, source records as given, and a demand-loss timer. -/
def zeroDemand : DemandRecord := ⟨0, false, 0, 0⟩
def withTimer (d : DemandTimer) (s : State) : State := { s with control := { s.control with timer := d } }
def withDemand (d : DemandRecord) (s : State) : State := { s with control := { s.control with demand := some d } }
def withStaging (x : Staging) (s : State) : State := { s with tables := { s.tables with staging := x } }
def withStore (f : Store → Store) (s : State) : State := { s with store := f s.store }
def withSlot (n : OrderName) (s : State) : State := { s with orders := { s.orders with slot := some ⟨n, 9, 0⟩ } }
def withCal (c : Calibration) (s : State) : State := { s with builder := { s.builder with calibration := some c } }
def settling : Calibration := ⟨.a, .settle, 0, 40, 200, 184, 0, 9⟩
def stepping : Calibration := ⟨.a, .step, 0, 40, 200, 184, 0, 9⟩
def atTime (d : LinkTime) (s : State) : State := { s with time := d }

/-! ### Witnesses: the machine as a whole -/

theorem witness_StepRunsFrontCommand :
    ({ base with pending := [.inquire src] } : State).pending = Instr.inquire src :: [] := rfl

theorem witness_IdleStepIsTime :
    base.pending = [] ∧ (atTime 1000 base).dueCommands = [.adhesionRecoveryStep] ∧ (atTime 999 base).dueCommands = []
      ∧ State.reset.phase = .starting ∧ ({ base with phase := .off } : State).phase = .off := by
  refine ⟨rfl, ?_, ?_, rfl, rfl⟩ <;> decide

theorem witness_CommandsKeepQueueAndTime :
    (∃ t, exec (.engage src) base = .next t) ∧ isReset (.engage src) = false ∧ Instr.engage src ≠ .startUpLoad := by
  refine ⟨⟨_, rfl⟩, rfl, by simp⟩

/-- A state with a command in front. -/
def engaging : State := { base with pending := [.engage src] }

theorem witness_StepKeepsMemoryCanonical : engaging.memoryWf = true ∧ ∃ t, step engaging = .next t := ⟨rfl, _, rfl⟩

theorem engaging_step : ∃ t, step engaging = .next t ∧ t.store.scan = .done := ⟨_, rfl, by decide⟩

theorem witness_StepKeepsSizes : SizesSound engaging ∧ ∃ t, step engaging = .next t := by
  refine ⟨⟨⟨?_, ?_, ?_⟩, ?_, (fun r h => by cases h), (fun q h => by cases h)⟩, _, rfl⟩ <;> decide

theorem engaging_tables : TablesSound engaging :=
  ⟨⟨by decide +kernel, rfl⟩, trivial, fun c h => by cases h⟩

theorem witness_StepKeepsTableChecked : TablesSound engaging ∧ ∃ t, step engaging = .next t := ⟨engaging_tables, _, rfl⟩

theorem witness_StepKeepsSlideBounds : TablesSound engaging ∧ SlideSound engaging ∧ ∃ t, step engaging = .next t :=
  ⟨engaging_tables, ⟨fun a => by cases a <;> decide, fun a => by cases a <;> decide, by decide⟩, _, rfl⟩

theorem no_slot {s : State} (h : s.orders.slot = none) (names : List OrderName) : ¬ s.slotNamed names := by
  rintro ⟨l, hl, -⟩; rw [h] at hl; cases hl

/-- The invariant of modes and part state, in STANDBY and, with no electric effort, in FALLBACK. -/
theorem witness_StepKeepsChannelModes :
    TablesSound engaging ∧ (∃ t, step engaging = .next t)
      ∧ ∀ p ∈ [PartState.standby, .fallback], ModesSound { inState p with pending := [.engage src] } := by
  refine ⟨engaging_tables, ⟨_, rfl⟩, ?_⟩
  intro p hp
  have hs : ∀ names, ¬ ({ inState p with pending := [.engage src] } : State).slotNamed names := no_slot rfl
  refine ⟨fun _ => ⟨fun a => ?_, fun k => ?_⟩, fun a => ?_, fun k => ⟨fun h => ?_, ?_⟩,
    ⟨fun _ => Nat.zero_le _, fun h => by cases h⟩, fun _ a => by cases a <;> rfl,
    fun _ => ⟨fun a => by cases a <;> rfl, fun k => by cases k <;> exact ⟨rfl, rfl, rfl⟩⟩, ?_⟩
  · cases a <;> exact .inr rfl
  · cases k <;> exact .inr rfl
  · exact ⟨by cases a <;> (intro h; cases h), fun h => by
      cases a <;> first | rfl | exact absurd (show factorySet.present _ = false from h) (by decide)⟩
  · cases k <;> cases h
  · rintro ⟨c, h, -⟩; cases h
  · exact ⟨⟨fun h => (by cases h), fun h => absurd h (hs _)⟩, ⟨fun h => (by cases h), fun h => absurd h (hs _)⟩,
      ⟨fun h => (by cases h), fun h => absurd h (hs _)⟩⟩

theorem engaging_not_writing : ∀ i < 16, engaging.store.bankIs .writing i = false := by decide

theorem witness_StepKeepsStoreSound :
    TablesSound engaging ∧ SizesSound engaging ∧ StoreSound engaging ∧ ∃ t, step engaging = .next t ∧ t.store.scan = .done := by
  refine ⟨engaging_tables, witness_StepKeepsSizes.1, ⟨fun i j hi _ h => ?_, by decide, by decide, ?_, by decide, by decide, by decide⟩,
    engaging_step⟩
  · rw [engaging_not_writing i hi] at h; cases h
  · intro h; cases h

theorem witness_StepKeepsQueueBound :
    TablesSound engaging ∧ QueuesSound engaging ∧ (∀ p, (engaging.port p).bounded) ∧ ∃ t, step engaging = .next t := by
  refine ⟨engaging_tables, ⟨?_, ?_, ?_, ?_, by decide, by decide, ?_⟩, fun p => by cases p <;> exact Or.inr rfl, _, rfl⟩
  · intro p; cases p <;> decide
  · intro p; cases p <;> decide
  · intro p; cases p <;> decide
  · exact ⟨by decide, by decide, fun l h => by cases h⟩
  · have h : engaging.orders.positions = [pos] := base_positions
    intro q hq; rw [h] at hq; simp only [List.mem_singleton] at hq; subst hq; intro h; cases h

theorem witness_CommandsKeepQueueAndTime_memory :
    endsMemoryWork .pageReadEnd = false ∧ ∃ t, exec .pageReadEnd base = .next t := ⟨rfl, _, rfl⟩

/-- A directory entry of a record on bank 0, and stores whose banks are all in use. -/
def closedEntry : DirEntry :=
  ⟨7, .closed, .manual, 1, 0, 0, some ⟨0, 0⟩, 2, [0], 0, some ⟨5, 0, 0, .postDone⟩, 0, 5, some ⟨0, 1⟩, false⟩
def filledBanks : List BankEntry := (List.range 16).map (fun i => ⟨.filled, i + 1, 0, 0⟩)
def fullStore : Store := { Store.blank with scan := .done, banks := filledBanks, directory := [closedEntry] }
def nearlyFull : Store := { fullStore with banks := filledBanks.set 15 ⟨.erased, 16, 0, 0⟩ }

/-- With no bank ready, bank 1 is the oldest unprotected one; a bank ready, and two; and the scan still to come. -/
theorem witness_ReclaimSparesProtected :
    let free := fun (t : Store) i => i < 16 ∧ t.bankIs .filled i = true ∧ t.bankProtected 4 i = false
    closedEntry ∈ fullStore.directory ∧ fullStore.isProtected 4 closedEntry = true
      ∧ fullStore.scan = .done ∧ fullStore.roomBanks < 2 ∧ free fullStore 1
      ∧ (∀ j < 16, free fullStore j → (fullStore.bank 1).fillSeq < (fullStore.bank j).fillSeq
          ∨ (fullStore.bank 1).fillSeq = (fullStore.bank j).fillSeq ∧ 1 ≤ j)
      ∧ (fullStore.judgeReclaim 4).bankIs .erasing 1 = true ∧ fullStore.bankIs .erasing 1 = false
      ∧ nearlyFull.roomBanks = 1 ∧ free nearlyFull 1 ∧ (∀ j < 16, fullStore.bankIs .filled 0 = true ∧ ¬ free fullStore 0)
      ∧ (∀ i < 16, ¬ free Store.blank i) ∧ Store.blank.scan = .scanning ∧ 2 ≤ Store.blank.roomBanks := by decide

/-! ### Witnesses: encodings and computations -/

theorem witness_TelegramsRoundTrip :
    (62 : U8) ≠ 63 ∧ (List.replicate 64 (0 : U8)).length ≤ 64 ∧ parseTelegram other.bytes = some other
      ∧ (∃ q : PortState, q.tx = some (.forwarded other))
      ∧ (∃ q : PortState, q.tx = some (.own 2 10 0 (.reply ⟨0, ⟨9, 0x72, .done, .empty⟩, 0⟩))) ∧ 0 < 128 := by
  refine ⟨by decide, by decide +kernel, by decide +kernel, ⟨{ PortState.reset with tx := _ }, rfl⟩,
    ⟨{ PortState.reset with tx := _ }, rfl⟩, by decide⟩

theorem witness_StoredFormsReadBack :
    factorySet.entries.length = 32 ∧ factorySet.breakpoints.length = 16 ∧ factorySet.triggers.length = 12
      ∧ 32 < Sect.classify.items ∧ (List.replicate 4 (1 : U8)).length = Sect.classify.itemSize 32
      ∧ 16 < Sect.capability.items ∧ (Sect.capability, 16) ≠ (Sect.classify, 32) := by decide

def openData : OpenData := ⟨1, .manual, 1, 0, 0, 0, 0, 0, .standby⟩
def closeData : CloseData := ⟨0, 0, 1, 8, .postDone, List.replicate 8 ⟨.manual, 1, 0, 0⟩⟩
def sample0 : Sample :=
  ⟨0, 0, .demand, .standby, none, 0, PerAxle.const none, PerAxle.const .adhered, PerAxle.const 0, ⟨0, 0⟩, ⟨none, none⟩,
    ⟨.normal, .normal⟩, 0, .normal, none⟩

theorem witness_StoredFormsReadBack_pages :
    (1 ≤ 1 ∧ 1 ≤ 4294967295) ∧ (List.replicate 10 sample0).length ≤ 10 ∧ closeData.extras.length ≤ 8
      ∧ (List.replicate 10 sample0)[9]? = some sample0 := by decide

/-- The sizes of a set, rows that pass and rows that fail: of three equal keys, entries 4 and 5 equal to entry 1, the lower
of the two is given; and no axle fitted. -/
def sameKeys : TableSet := { factorySet with entries := ((factoryEntries.set 5 (factorySet.entry 1)).set 4 (factorySet.entry 1)) }

theorem witness_ChecksJudged :
    (∀ t ∈ [factorySet, sameKeys, { factorySet with recorder := ⟨255, 1⟩ }],
      t.entries.length = 32 ∧ t.breakpoints.length = 16 ∧ t.triggers.length = 12)
      ∧ factorySet.check = none ∧ sameKeys.checkKey = some ⟨.key, 1, 4⟩
      ∧ ({ factorySet with recorder := ⟨255, 1⟩ } : TableSet).check = some ⟨.recorder, 8, 0⟩
      ∧ factorySet.axleBlock.presence.getLsbD Axle.e1.bit = true
      ∧ (∀ a, (0 : U8).getLsbD (Axle.bit a) ≠ true) := by
  refine ⟨?_, by decide +kernel, by decide +kernel, by decide +kernel, by decide, fun a => by cases a <;> decide⟩
  intro t ht
  simp only [List.mem_cons, List.not_mem_nil, or_false] at ht
  rcases ht with rfl | rfl | rfl <;> decide

theorem witness_CurveInterpolates :
    factorySet.checkCurve = none ∧ factorySet.curveCount = 7 ∧ 5 + 1 < factorySet.curveCount
      ∧ (factorySet.breakpoint 5).speed.toNat ≤ 15999 ∧ 15999 < (factorySet.breakpoint 6).speed.toNat
      ∧ base.tbl = factorySet ∧ 0 ≤ (factorySet.breakpoint 0).speed.toNat
      ∧ (factorySet.breakpoint 6).speed.toNat ≤ 16000 := by decide

theorem witness_HeatAndThermal :
    let r := factorySet.thermal
    r.ok = true ∧ 150000 ≤ r.hDerate.toNat ∧ r.hDerate.toNat < 150001 ∧ 249999 < r.hTrip.toNat
      ∧ r.hTrip.toNat ≤ 250000 ∧ 120000 ≤ r.hReset.toNat ∧ r.hReset.toNat < 120001 ∧ Thermal.derate ≠ .trip := by decide

/-- The three ranges of the heat sum: kept, above the range, below 0. -/
theorem witness_HeatAndThermal_update :
    let hot : State :=
      { base with
        capability := { base.capability with heat := 999999 }, slide := { base.slide with vref := 16000 }
        builder := { base.builder with last := ⟨⟨true, PerAxle.const 1000, ⟨0, 0⟩, ⟨.normal, .normal⟩, 0⟩, 0⟩ } }
    (0 : Int) ≤ (base.capability.heat : Int) + (0 : Nat) - (0 : Nat)
      ∧ (999999 : Int) < (hot.capability.heat : Int) + (6000 * 16000 * 200 / 3600000 : Nat) - (2000 * 200 / 1000 : Nat)
      ∧ (base.capability.heat : Int) + (0 : Nat) - (2000 * 200 / 1000 : Nat) < 0
      ∧ (Axle.all.map hot.builder.last.cmd.efforts.get).sum = 6000 ∧ hot.roleFreshness .inverterA = .never
      ∧ hot.roleFreshness .inverterB = .never ∧ hot.tbl.thermal.pCool = 2000 ∧ (hot.heatUpdate 200).capability.heat = 999999
      ∧ (base.heatUpdate 200).capability.heat = 0 := by decide

theorem witness_TargetsPlaced :
    ((5 + 1) / 2 ≤ 3 ∧ 5 / 2 ≤ 2) ∧ (2 < (5 + 1) / 2) ∧ ((5 + 1) / 2 ≤ 3 ∧ 1 < 5 / 2) ∧ 0 < 1
      ∧ 4100 ≤ factoryTruck.airEffort 450 ∧ 100 ≤ factoryTruck.gain.toNat ∧ factoryTruck.pOff.toNat < 41 ∧ 450 ≤ 450 := by
  decide


/-! ### Witnesses: computation, slide, emission, capture -/

def failing : CheckFailure := ⟨.trig, 7, 0⟩
def pendingSwitch : State := withStaging (.pendingSwitch factorySet 0) (inState .active)

theorem witness_ComputationAccounts :
    pendingSwitch.tables.staging = .pendingSwitch factorySet 0 ∧ pendingSwitch.control.partState = .active
      ∧ pendingSwitch.demandEffort = 0 ∧ pendingSwitch.demandEmergency = false
      ∧ (inState .fallback).control.partState = .fallback ∧ (inState .maintenance).control.partState ≠ .fallback
      ∧ (withDemand ⟨6000, true, 6000, 0⟩ (inState .active)).demandEmergency = true
      ∧ (withDemand ⟨6000, false, 6000, 0⟩ (inState .active)).demandEffort ≠ 0 := by decide

/-- A short run that reaches N_short, 10 computations: no capability for a demand, both trucks OFF. -/
theorem witness_ComputationAccounts_shortfall :
    let s := withDemand ⟨6000, false, 6000, 0⟩ (inState .active)
    let u : State :=
      { s with
        control := { s.control with trucks := ⟨⟨.off, 0⟩, ⟨.off, 0⟩⟩ }, blender := { s.blender with shortRun := 9 } }
    factorySet.blend.nShort.toNat = 10 ∧ u.blender.shortRun ≠ 10
      ∧ u.compute.blender.record.map (fun r => (r.short, r.shortRun)) = some (true, 10) := by decide +kernel

/-- A slide record in a state, judged against the factory set at reference speed 1500. -/
def judged0 (st : SlideState) (limit count : Nat) : SlideRecord := ⟨st, limit, count, 0, 0, none, none, none⟩
def judgeOn0 : JudgeOn := ⟨factoryAdhesion, 1000, 300, 1500, 5000⟩

/-- Speeds at the thresholds: locks below 100, slides at 90 per mille (speed 1365) or 300 sc, SUSPECT at 40 (1440),
recovered below 25 (1463); counts at N_rec, at 3, and invalid samples at N_lost; limits within the unlimited value. -/
theorem witness_SlideStatesJudged :
    (99 < factoryAdhesion.vLockAxle.toNat ∧ factoryAdhesion.vLockRef.toNat ≤ judgeOn0.vref)
      ∧ ¬ 100 < factoryAdhesion.vLockAxle.toNat
      ∧ factoryAdhesion.thSlide.toNat ≤ min 1000 ((1500 - 1365) * 1000 / max 1500 500)
      ∧ min 1000 ((1500 - 1366) * 1000 / max 1500 500) < factoryAdhesion.thSlide.toNat
      ∧ factoryAdhesion.cAbs.toNat ≤ 1500 - 1200 ∧ 1500 - 1366 < factoryAdhesion.cAbs.toNat
      ∧ factoryAdhesion.thSuspect.toNat ≤ min 1000 ((1500 - 1440) * 1000 / max 1500 500)
      ∧ min 1000 ((1500 - 1441) * 1000 / max 1500 500) < factoryAdhesion.thSuspect.toNat
      ∧ min 1000 ((1500 - 1463) * 1000 / max 1500 500) < factoryAdhesion.thRecover.toNat
      ∧ factoryAdhesion.thRecover.toNat ≤ min 1000 ((1500 - 1462) * 1000 / max 1500 500)
      ∧ factoryAdhesion.nRec.toNat ≤ min 255 ((judged0 .recovering 300 4).consecutive + 1)
      ∧ min 255 ((judged0 .recovering 300 3).consecutive + 1) < factoryAdhesion.nRec.toNat
      ∧ 3 ≤ (judged0 .sensorLost 0 2).consecutive + 1 ∧ (judged0 .sensorLost 0 1).consecutive + 1 < 3
      ∧ factoryAdhesion.nLost.toNat ≤ min 255 (3 + 1) ∧ min 255 (2 + 1) < factoryAdhesion.nLost.toNat
      ∧ (judged0 .adhered 1000 0).limit ≤ judgeOn0.unlimited ∧ (judged0 .sliding 0 0).state ≠ .sensorLost
      ∧ (judged0 .locked 0 0).state = .locked ∧ (judged0 .suspect 0 0).state = .suspect := by decide

/-- A base state whose command builder has one axle's slide state and one truck's action. -/
def truckState (st : SlideState) (x : TruckAction) : State :=
  { inState .active with
    builder :=
      { base.builder with
        copy := { base.builder.copy with a1 := st }, trucks := ⟨⟨x, some 300, some 5⟩, ⟨.normal, none, none⟩⟩ } }

theorem witness_TruckActionsDerived :
    (∃ a ∈ Truck.a.axles, (truckState .locked .ventExpired).builder.copy.get a = .locked)
      ∧ ((truckState .locked .ventExpired).builder.trucks.get .a).action = .ventExpired
      ∧ ((truckState .locked .vent).builder.trucks.get .a).action = .vent
      ∧ ((truckState .locked .normal).builder.trucks.get .a).action ≠ .vent
      ∧ (∃ a ∈ Truck.a.axles, (truckState .sliding .hold).builder.copy.get a = .sliding
          ∧ (base.blender.alloc.efforts.get a = 0 ∨ (base.control.axles.get a).mode = .off))
      ∧ (¬ ∃ a ∈ Truck.a.axles, (truckState .sliding .hold).builder.copy.get a = .locked)
      ∧ (¬ ∃ a ∈ Truck.b.axles, (truckState .sliding .hold).builder.copy.get a = .sliding)
      ∧ [Axle.e1] ≠ [] ∧ base.control.partState = .standby ∧ (inState .active).control.partState ≠ .standby
      ∧ ((State.deriveActions (PerAxle.const 0) (truckState .sliding .normal)).builder.trucks.get .a).action = .hold := by
  decide

def cmd0 : BrakeCmd := ⟨false, PerAxle.const 0, ⟨0, 0⟩, ⟨.normal, .normal⟩, 0⟩

theorem witness_EmissionClamps :
    let s := busy (truckState .sliding .hold)
    let w : State := { s with ports := { s.ports with drive := { s.ports.drive with own := [.brakeCmd cmd0] } } }
    (s.port .drive).tx.isSome = true ∧ (∀ d, .brakeCmd d ∉ (s.port .drive).own) ∧ (w.port .drive).tx.isSome = true
      ∧ (w.port .drive).own = [] ++ .brakeCmd cmd0 :: [] ∧ (∀ d, OwnTelegram.brakeCmd d ∉ ([] : List OwnTelegram))
      ∧ (s.emitControl.builder.trucks.get .a).action = .hold ∧ (s.emitControl.builder.trucks.get .a).hold = some 300
      ∧ (s.emitControl.builder.trucks.get .b).action = .normal
      ∧ ((busy (truckState .locked .vent)).emitControl.builder.trucks.get .a).action = .vent := by
  refine ⟨rfl, by simp [busy, onLine, truckState, inState, State.port, PerPort.get, base, State.reset, State.atReset,
    PortState.reset], rfl, rfl, by simp, ?_, ?_, ?_, ?_⟩ <;> decide

/-- Section 10.2.1: a reply of CLOSE data has 101 bytes, sent as 61 and 40; a status reply without data is one. -/
theorem test_reply_fragments :
    let d := ReplyData.item 5 ⟨0, 0⟩ (List.replicate 89 0)
    d.bytes.length = 101 ∧ d.fragments = 2
      ∧ (ReplyFragment.payload ⟨0, ⟨5, 0x55, .done, d⟩, 0⟩).length = 64
      ∧ (ReplyFragment.payload ⟨0, ⟨5, 0x55, .done, d⟩, 1⟩).length = 43 ∧ ReplyData.empty.fragments = 1 := by
  decide +kernel

/-- An idle transmitter with nothing of the part's own waiting, at the bound of what may be forwarded beside it. -/
theorem witness_EmissionClamps_idle :
    let q := { base.ports.drive with fwd := List.replicate 11 (Telegram.form 9 9 9 9 []) }
    let s : State := { inState .active with ports := { base.ports with drive := q } }
    s.phase = .running ∧ (s.port .drive).tx = none ∧ (s.port .drive).own = [] ∧ (s.port .drive).fwd.length < 12 ∧ 11 ≤ (s.port .drive).fwd.length := by
  decide

theorem witness_ReportsTaken_supervision :
    (100 + 20 ≤ 120 ∧ 119 < 100 + 20) ∧ (40 ≤ 50 + 10 ∧ 50 ≤ 40 + 10) ∧ (50 + 10 < 61)
      ∧ (⟨.armed 5, 100⟩ : Supervision).state = .armed 5 ∧ (⟨.late, 100⟩ : Supervision).state = .late
      ∧ (⟨.idle, 100⟩ : Supervision).state = .idle ∧ (⟨.suspended, 0⟩ : Supervision).state = .suspended := by decide

/-- A capture in COLLECTING with a countdown and samples. -/
def capturing (pre post countdown : Nat) : CaptureRecord :=
  ⟨1, .manual, 0, 0, 1, pre, 0, countdown, post, 0, 0, 0, [], 0, true, .collecting, openData⟩

theorem witness_SampleTaken :
    (capturing 0 0 1).phase = .collecting ∧ (capturing 0 0 1).countdown ≤ 1 ∧ 1 < (capturing 250 999 2).countdown
      ∧ 1250 ≤ (capturing 250 999 2).pre + (capturing 250 999 2).post + 1
      ∧ (capturing 250 998 2).pre + (capturing 250 998 2).post + 1 < 1250
      ∧ 250 ≤ (List.replicate 250 sample0).length ∧ (List.replicate 250 sample0).head?.map (fun x => x.index) = some 0
      ∧ (capturing 0 0 1).cursor = 0 := by decide +kernel

/-- A capture at its OPEN page, in COLLECTING with 10 samples ahead and with 9, and in FLUSHING with one left and with
none; the queue with room, and full while an operation is in progress. -/
def flushing (last : U32) (r : CaptureRecord) : CaptureRecord := { r with nextPage := 1, phase := .flushing last .postDone }
def building (r : CaptureRecord) (n : Nat) (t : Store) : State :=
  { base with
    capture := { base.capture with recorder := .capturing, record := some r, ring := List.replicate n sample0 }, store := t }
def busyStore (queued : Nat) : Store :=
  { Store.blank with scan := .done, op := .commit ⟨0, 0⟩, queue := List.replicate queued ⟨⟨1, 0, .opening openData⟩, 0⟩ }

theorem witness_PagesBuilt :
    (∀ r ∈ [capturing 0 0 1, { capturing 0 0 1 with nextPage := 1 }, flushing 0 (capturing 0 0 1), flushing (-1) (capturing 0 0 1)],
      ∀ n ∈ [9, 10], ∀ k ∈ [3, 4],
        (building r n (busyStore k)).capture.record = some r
        ∧ (building r n (busyStore k)).capture.ring = [] ++ List.replicate n sample0
        ∧ (building r n (busyStore k)).capture.ring.head? = some sample0
        ∧ ([] : List Sample).length = min (List.replicate n sample0).length (r.cursor - sample0.index).toNat
        ∧ (building r n (busyStore k)).store.queue.length = k)
      ∧ (capturing 0 0 1).nextPage = 0 ∧ 10 ≤ (List.replicate 10 sample0).length ∧ (List.replicate 9 sample0).length < 10
      ∧ 0 < min (List.replicate 9 sample0).length ((0 : U32) + 1 - (capturing 0 0 1).cursor).toNat
      ∧ min (List.replicate 9 sample0).length ((-1 : U32) + 1 - (capturing 0 0 1).cursor).toNat = 0
      ∧ (busyStore 4).op ≠ .idle ∧ 2 ≤ (busyStore 4).roomBanks := by
  refine ⟨?_, by decide⟩
  intro r hr n hn k hk
  have h0 : r.cursor = 0 := by
    simp only [List.mem_cons, List.not_mem_nil, or_false] at hr
    rcases hr with rfl | rfl | rfl | rfl <;> rfl
  have h1 : (List.replicate n sample0).head? = some sample0 := by
    simp only [List.mem_cons, List.not_mem_nil, or_false] at hn
    rcases hn with rfl | rfl <;> rfl
  refine ⟨rfl, rfl, h1, ?_, by simp [building, busyStore]⟩
  rw [h0]
  simp [sample0]

/-- Stores for the arbiter: an operation in progress and the scan running; idle with nothing queued, a page read, an erase
and neither waiting; a page queued with a WRITING bank, with an ERASED bank next, with an ERASING bank alone, and with no
place to come. -/
def arbitrated (queued : Nat) (banks : List BankEntry) : Store :=
  { Store.blank with
    scan := .done, banks := banks, queue := List.replicate queued ⟨⟨1, 0, .opening openData⟩, 0⟩ }
def erasedBanks : List BankEntry := List.replicate 16 BankEntry.erased
def retiredBanks : List BankEntry := List.replicate 16 ⟨.retired, 0, 0, 0⟩

theorem witness_ArbiterStarts :
    (∀ r, base.capture.record ≠ some r)
      ∧ (∀ t ∈ [busyStore 1, Store.blank, arbitrated 0 erasedBanks, arbitrated 1 (erasedBanks.set 3 ⟨.writing, 1, 0, 5⟩),
          arbitrated 1 erasedBanks, arbitrated 1 (retiredBanks.set 3 ⟨.erasing, 0, 0, 0⟩), arbitrated 1 retiredBanks],
        t.judgeReclaim 4 = t)
      ∧ (busyStore 1).op ≠ .idle ∧ Store.blank.scan = .scanning ∧ (arbitrated 1 erasedBanks).op = .idle
      ∧ (arbitrated 1 erasedBanks).scan = .done ∧ (arbitrated 0 erasedBanks).queue = []
      ∧ (arbitrated 1 erasedBanks).queue ≠ [] ∧ (arbitrated 0 erasedBanks).erases = []
      ∧ (arbitrated 1 (erasedBanks.set 3 ⟨.writing, 1, 0, 5⟩)).bankIs .writing 3 = true
      ∧ (∀ j < 3, (arbitrated 1 (erasedBanks.set 3 ⟨.writing, 1, 0, 5⟩)).bankIs .writing j = false)
      ∧ (∀ i < 16, (arbitrated 1 erasedBanks).bankIs .writing i = false)
      ∧ 0 = ((arbitrated 1 erasedBanks).lastWriting + 1 + 0) % 16 ∧ (arbitrated 1 erasedBanks).bankIs .erased 0 = true
      ∧ (∀ e ∈ (arbitrated 1 erasedBanks).banks, e.fillSeq ≤ 0) ∧ (∃ e ∈ (arbitrated 1 erasedBanks).banks, e.fillSeq = 0)
      ∧ (∀ i < 16, (arbitrated 1 (retiredBanks.set 3 ⟨.erasing, 0, 0, 0⟩)).bankIs .erased i = false)
      ∧ (∃ i < 16, (arbitrated 1 (retiredBanks.set 3 ⟨.erasing, 0, 0, 0⟩)).bankIs .erasing i = true)
      ∧ (arbitrated 1 retiredBanks).roomBanks = 0 ∧ (arbitrated 1 retiredBanks).queue.length ≤ 4 := by
  refine ⟨(fun r h => by cases h), (by decide +kernel), ?_⟩
  decide +kernel

/-- The highest fill sequence at the end of its range, and one below it (R171). -/
theorem witness_ArbiterStarts_fill :
    (arbitrated 1 (erasedBanks.set 3 ⟨.filled, 4294967295, 0, 0⟩)).highestFill = 4294967295
      ∧ (arbitrated 1 (erasedBanks.set 3 ⟨.filled, 4294967294, 0, 0⟩)).nextFill = 4294967295 := by
  decide +kernel

/-- A capture in COLLECTING with 12 samples in the ring of which the last nine are still to be paged, and with a full
queue. -/
theorem witness_ArbiterStarts_capture :
    let r : CaptureRecord := { capturing 0 0 1 with nextPage := 1, cursor := 3 }
    (building r 12 (busyStore 1)).capture.record = some r ∧ r.nextPage ≠ 0 ∧ r.phase = .collecting
      ∧ (building r 12 (busyStore 1)).capture.ring = sample0 :: List.replicate 11 sample0
      ∧ 12 - (r.cursor - sample0.index).toNat = 9 ∧ (building r 12 (busyStore 1)).store.queue.length < 4
      ∧ 4 ≤ (building r 12 (busyStore 4)).store.queue.length ∧ (busyStore 1).judgeReclaim 4 = busyStore 1 := by decide +kernel

/-! ### Witnesses: resets, start-up, scan -/

def built : BuiltPage := ⟨7, 0, .opening openData⟩

/-- A bank whose second page alone is written, and one with a page as built. -/
def zeroPages : List (Nat × Bytes) := [(129, List.replicate 590 0)]
def onePage : List (Nat × Bytes) := [(0, built.bytes)]

def restartFragment : ReplyFragment := ⟨0, ⟨9, 0x72, .done, .empty⟩, 0⟩
def restartingState : State :=
  { base with
    orders := { base.orders with restarting := true }
    ports := { base.ports with cab := { base.ports.cab with tx := some (.own 2 10 0 (.reply restartFragment)) } } }
def storeAt (op : StoreOp) (t : Store) : Store := { t with op := op }
def committing : Store := { Store.blank with scan := .done, op := .commit ⟨15, 0⟩, queue := [⟨built, 0⟩] }

theorem witness_ResetsCommence :
    base.phase ≠ .off ∧ restartingState.phase = .running ∧ restartingState.orders.restarting = true
      ∧ (restartingState.port .cab).tx = some (.own 2 10 0 (.reply restartFragment))
      ∧ restartFragment.reply.code = OrderName.restart.code ∧ base.orders.restarting = false
      ∧ pagesWf base.store.pages = true ∧ committing.op = .commit ⟨15, 0⟩ ∧ committing.queue = ⟨built, 0⟩ :: []
      ∧ (storeAt (.erase 15) fullStore).op = .erase 15 ∧ (⟨15, 1⟩ : PageAddr).key ≠ (⟨15, 0⟩ : PageAddr).key
      ∧ (∀ i, base.store.op ≠ .erase i) ∧ (∀ a, base.store.op ≠ .commit a)
      ∧ base.tables.save = none ∧ (1 : Fin 4) ≠ 0 ∧ CutSave.completeNewSelection ≠ .corrupted
      ∧ (isErased (if 0 < 1 then erasedPage else lookupPage zeroPages 128) = true ∧ isErased (lookupPage zeroPages 129) = false)
      ∧ pagesWf zeroPages = true := by
  refine ⟨by decide, rfl, rfl, rfl, rfl, rfl, rfl, rfl, rfl, rfl, by decide, ?_, ?_, rfl, by decide, by decide, ?_, ?_⟩
  · intro _ h; cases h
  · intro _ h; cases h
  · decide +kernel
  · decide +kernel

/-- A slot with a valid profile, and one whose set fails a check. -/
def validSlot (x : TableSet) : Slot := .written 4 x (slotCrc 4 x)
def selecting (x : Slot) : State :=
  { State.reset with tables := { State.reset.tables with slots := ⟨x, .empty, .empty⟩, selection := 1 } }

theorem selecting_contents (x : TableSet) :
    (selecting (validSlot x)).tables.slots.contents (selecting (validSlot x)).tables.selection.val = some (4, x) := by
  simp [selecting, validSlot, UserSlots.contents, UserSlots.get, Slot.contents]

theorem witness_StartUpLoads :
    State.reset.phase = .starting ∧ State.reset.tables.selection = 0 ∧ (selecting .empty).tables.selection ≠ 0
      ∧ (selecting .empty).tables.slots.contents 1 = none
      ∧ (∀ x, (selecting (validSlot x)).tables.slots.contents (selecting (validSlot x)).tables.selection.val
          = some (4, x))
      ∧ factorySet.check = none
      ∧ ({ factorySet with recorder := ⟨255, 1⟩ } : TableSet).check ≠ none := by
  refine ⟨rfl, rfl, by decide, rfl, selecting_contents, ?_, ?_⟩ <;> decide +kernel

/-- The scan with an order of each kind waiting for it. -/
def scanWaits (name : OrderName) (j : StoreJob) : State :=
  withSlot name { base with store := { Store.blank with job := some j } }

theorem witness_ScanBuildsDirectory :
    (Store.scanFirst onePage []).bankIs .writing 0 = true ∧ (Store.scanFirst zeroPages [3]).bankIs .erasing 2 = true
      ∧ (Store.scanFirst zeroPages [3]).bankIs .retired 3 = true ∧ bankHighest onePage 0 = some 7
      ∧ ({ Store.blank with pages := onePage, banks := filledBanks } : Store).scannedEntries.map (fun e => e.incident) = [7]
      ∧ (let s := { base with store := Store.blank }
        s.phase = .running ∧ s.store.scan = .scanning ∧ s.store.job = none ∧ s.capture.record = none
          ∧ s.store.queue = [] ∧ s.store.op = .idle ∧ 2 ≤ s.store.roomBanks ∧ s.noHeld) := by
  refine ⟨?_, ?_, ?_, ?_, ?_, rfl, rfl, rfl, rfl, rfl, rfl, ?_, noHeld_of base_positions⟩
  · decide +kernel
  · decide +kernel
  · decide +kernel
  · decide +kernel
  · decide +kernel
  · decide

/-- A record with an OPEN and a CLOSE page, and one whose CLOSE page is not there. -/
def twoPages : List (Nat × Bytes) := [(0, built.bytes), (1, (⟨7, 1, .closing closeData⟩ : BuiltPage).bytes)]

theorem witness_ScanBuildsDirectory_entries :
    let entries := fun l => ({ Store.blank with pages := l, banks := filledBanks } : Store).scannedEntries
    (entries onePage).map (fun e => (e.incident, e.pageCount, e.close.isSome)) = [(7, 1, false)]
      ∧ (entries twoPages).map (fun e => (e.incident, e.pageCount, e.close.isSome)) = [(7, 2, true)]
      ∧ (entries twoPages).map (fun e => e.firstPage) = [some ⟨0, 0⟩]
      ∧ pageKind (lookupPage twoPages 0) = 1 ∧ pageKind (lookupPage twoPages 1) = 3 := by
  refine ⟨?_, ?_, ?_, ?_, ?_⟩ <;> decide +kernel

/-- Section 9.1.1: the last trigger kind, and both close reasons, from their bytes. -/
theorem test_scan_codes : scanKind 11 = .tableSwitch ∧ scanReason 0 = .postDone ∧ scanReason 1 = .lengthCap := by decide

/-- A record whose OPEN and CLOSE pages count no sample, with a SAMPLE page of one. -/
theorem witness_ScanBuildsDirectory_more :
    let close := { closeData with post := 0 }
    let l := [(0, (⟨7, 0, .opening { openData with pre := 0 }⟩ : BuiltPage).bytes),
      (1, (⟨7, 1, .samples [sample0]⟩ : BuiltPage).bytes), (2, (⟨7, 2, .closing close⟩ : BuiltPage).bytes)]
    let t : Store := { Store.blank with pages := l, banks := filledBanks }
    t.scannedEntries.map (fun e => (e.pre, e.committed, e.close.isSome)) = [(0, 1, true)] := by
  decide +kernel

/-- Two partly erased banks, whose erases wait in ascending number. -/
theorem witness_ScanBuildsDirectory_erases :
    (Store.scanFirst [(129, List.replicate 590 0), (70, List.replicate 590 0)] []).erases = [1, 2] := by decide +kernel

/-- The orders that wait for the scan, each as it stands in the slot and taken at the scan's end. -/
theorem witness_ScanBuildsDirectory_waiting :
    (∀ name j, (scanWaits name j).phase = .running ∧ (scanWaits name j).noHeld ∧ (scanWaits name j).store.scan = .scanning
        ∧ (scanWaits name j).orders.slot = some ⟨name, src.tag, pos.pid⟩ ∧ (scanWaits name j).store.job = some j
        ∧ ∀ t : Store, Ready { scanWaits name j with
            store := t, orders := { (scanWaits name j).orders with slot := none } } src pos)
      ∧ asOrder (.readRecord src 7 0 1) = some (src, .readRecord, be32 7 ++ be16 0 ++ [1])
      ∧ asOrder (.readNext src) = some (src, .readNext, []) ∧ asOrder (.clearStore src) = some (src, .clearStore, [])
      ∧ asOrder (.listRecords src 0) = some (src, .listRecords, [0])
      ∧ (let s := scanWaits .listRecords (.scanList 0)
        let built := Store.judgeReclaim
          { s.store with directory := (s.store.directory ++ s.store.scannedEntries).take 48, scan := .done }
          s.tbl.recorder.retention.toNat
        ({ s with store := { built with job := none }, orders := { s.orders with slot := none } } : State).storeStill) := by
  refine ⟨fun name j => ⟨rfl, noHeld_of base_positions, rfl, rfl, rfl, fun t => ready_of rfl rfl base_positions⟩, rfl, rfl,
    rfl, rfl, still_of rfl ?_ ?_ ?_ rfl⟩ <;> decide +kernel


/-! ### Witnesses: the link -/

/-- A telegram as bytes: what is handed on, and the fields that are read. -/
theorem other_received : checkReceived (.whole other.bytes) = some other := by decide +kernel

/-- Telegrams to the part (node 10), from the demand source, from a management source, and from no source. -/
def toPart (source kind : U8) : Telegram := Telegram.form 10 source kind 0 []
def fromSource (dest source kind seq : U8) (payload : Bytes) : Telegram := Telegram.form dest source kind seq payload

theorem witness_CheckErrorsDiscarded :
    base.phase = .running ∧ base.noHeld ∧ checkReceived (.truncated []) = none
      ∧ checkReceived (.whole (List.replicate 6 0)) = none ∧ checkReceived (.whole (List.replicate 7 0)) = none
      ∧ checkReceived (.whole other.bytes) = some other ∧ (1 : U8).getLsbD 0 = true ∧ (1 : U8) ≠ 0 := by
  refine ⟨rfl, noHeld_of base_positions, rfl, ?_, ?_, other_received, ?_, ?_⟩ <;> decide +kernel

/-- For the part: without an entry, and under the DEMAND entry. For another: under no entry and the default action
FORWARD or DROP, under CONSUME and OBSERVE entries with a role, and under FORWARD and DROP entries without one. -/
theorem witness_ClassifiedByEntry :
    let plain := fun (action : U8) => (⟨0, 5, 0x33, action, 0, 0⟩ : ClassEntry)
    let t := fun action => { factorySet with entries := plain action :: factoryEntries }
    base.phase = .running ∧ base.noHeld ∧ checkReceived (.whole other.bytes) = some other
      ∧ (toPart 5 0x33).dest = base.node ∧ base.tbl.matching .cab (toPart 5 0x33) = none
      ∧ base.tbl.matching .cab (toPart 1 0x10) = some 0 ∧ (base.tbl.entry 0).roleOf ≠ .order
      ∧ other.dest ≠ base.node ∧ base.tbl.matching .cab other = none ∧ base.tbl.header.defaultAction = 0
      ∧ ({ factorySet with header := ⟨10, 1, 200⟩ } : TableSet).header.defaultAction ≠ 0
      ∧ (∀ a ∈ [0, 1, 2, 3], (t a).matching .cab other = some 0 ∧ ((t a).entry 0).roleOf = .none)
      ∧ [0, 1, 2, 3].map (fun a => ((t a).entry 0).actionOf) = [Action.forward, .observe, .consume, .drop]
      ∧ (factorySet.entry 1).roleOf = .order
      ∧ (let m := fromSource 99 2 0x40 0 []
        m.dest ≠ base.node ∧ base.tbl.matching .cab m = some 1 ∧ m.kind = 0x40 ∧ (factorySet.entry 1).actionOf = .consume) := by
  refine ⟨rfl, noHeld_of base_positions, other_received, ?_⟩
  decide

/-- The record of an entry of the base state, and states in which the records of a role are FRESH with sequence 0. -/
def recordAt (s : State) (i : Nat) : SourceRecord :=
  (s.sources.find? (fun y => y.entry == i)).getD (SourceRecord.initial 0 ⟨.cab, 0, 0⟩ .none)
def freshDemand : State := freshened .demand 500 base

theorem witness_ArrivalsJudged :
    let m := fun seq => fromSource 99 1 0x10 seq [0, 0, 0]
    let o := fromSource 10 2 0x40 0 [1, 0x70]
    let short := fromSource 99 1 0x10 0 [0, 0]
    (∀ s ∈ [base, freshDemand],
      s.phase = .running ∧ s.noHeld ∧ s.tbl.matching .cab (m 0) = some 0 ∧ s.tbl.matching .cab o = some 1
        ∧ s.sources.find? (fun y => y.entry == 0) = some (recordAt s 0) ∧ (recordAt s 0).role = (s.tbl.entry 0).roleOf
        ∧ (recordAt s 1).role = .order ∧ o.dest = s.node ∧ (m 0).dest ≠ s.node ∧ (s.tbl.entry 0).actionOf = .consume)
      ∧ checkReceived (.whole (m 0).bytes) = some (m 0) ∧ checkReceived (.whole short.bytes) = some short
      ∧ (recordAt base 0).freshness = .never ∧ (recordAt freshDemand 0).freshness = .fresh
      ∧ (([0, 1, 2, 255] : List U8).map (fun q => (q - ((recordAt freshDemand 0).lastSeq.getD 0)).toNat)) = [0, 1, 2, 255]
      ∧ (m 0).payload.length = 3 ∧ short.payload.length ≠ 3 ∧ (m 0).kind ≠ 0x40 := by
  refine ⟨?_, ?_⟩
  · intro s hs
    have h : s.phase = .running ∧ s.orders.positions = [pos] := by
      simp only [List.mem_cons, List.not_mem_nil, or_false] at hs
      rcases hs with rfl | rfl <;> exact ⟨rfl, base_positions⟩
    refine ⟨h.1, noHeld_of h.2, ?_⟩
    simp only [List.mem_cons, List.not_mem_nil, or_false] at hs
    rcases hs with rfl | rfl <;> decide
  · decide +kernel

/-- A port with telegrams waiting while another is on the line. -/
def waitingOn (own : List OwnTelegram) (fwd : List Telegram) (s : State) : State :=
  { s with ports := { s.ports with cab := { s.ports.cab with own := own, fwd := fwd, tx := some (.forwarded other) } } }

theorem witness_TransmitterTakesNext :
    let status := OwnTelegram.partStatus base.status
    let long : ReplyFragment := ⟨0, ⟨9, 0x70, .done, .empty⟩, 0⟩
    let s := waitingOn [.brakeCmd cmd0] [other] base
    s.phase = .running ∧ s.noHeld ∧ (s.port .cab).tx.isSome = true ∧ s.orders.restarting = false
      ∧ (s.port .cab).own = .brakeCmd cmd0 :: [] ∧ ((waitingOn [status] [] base).port .cab).own = status :: []
      ∧ ((waitingOn [.reply long] [] base).port .cab).own = .reply long :: [] ∧ base.position long.pid = some pos
      ∧ long.reply.data.fragments ≤ long.number + 1
      ∧ ((waitingOn [] [other] base).port .cab).own = [] ∧ ((waitingOn [] [other] base).port .cab).fwd = other :: []
      ∧ ((waitingOn [] [] base).port .cab).fwd = [] ∧ (base.port .cab).tx = none
      ∧ restartingState.orders.restarting = true
      ∧ (restartingState.port .cab).tx = some (.own 2 10 0 (.reply restartFragment)) ∧ Port.drive ≠ .cab := by
  refine ⟨rfl, noHeld_of base_positions, rfl, rfl, rfl, rfl, rfl, ?_, ?_, rfl, rfl, rfl, rfl, rfl, rfl, by decide⟩
    <;> decide

theorem witness_QueuesKeepPlaces :
    let full := waitingOn [] (List.replicate 12 other) base
    let s := waitingOn [.brakeCmd cmd0] [] base
    (s.port .cab).tx.isSome = true ∧ (s.port .cab).own = [] ++ .brakeCmd cmd0 :: []
      ∧ (OwnTelegram.brakeCmd cmd0).supersedes (.brakeCmd cmd0) = true
      ∧ (∀ z ∈ (s.port .cab).own, (OwnTelegram.partStatus base.status).supersedes z = false)
      ∧ 12 ≤ (full.port .cab).own.length + (full.port .cab).fwd.length ∧ (full.port .cab).fwd ≠ []
      ∧ ¬ 12 ≤ ((waitingOn [] (List.replicate 11 other) base).port .cab).own.length
          + ((waitingOn [] (List.replicate 11 other) base).port .cab).fwd.length := by
  refine ⟨rfl, rfl, rfl, ?_, by decide, by decide, by decide⟩
  intro z hz
  have : z = .brakeCmd cmd0 := List.mem_singleton.mp hz
  subst this; rfl

/-! ### Witnesses: orders by telegram, data telegrams -/

theorem base_ready : Ready base src pos := ready_of rfl rfl base_positions

/-- An order telegram under the factory set; names without an order, and an order with too few bytes. -/
theorem witness_OrderTelegramIsCommand :
    let tel := fun (code : U8) (args : Bytes) => Telegram.form base.node 2 kindOrder 0 (9 :: code :: args)
    base.phase = .running ∧ (2 : U8) ≠ 63 ∧ ([] : Bytes).length ≤ 62
      ∧ base.sources.find? (fun y => y.entry == 1) = some (recordAt base 1) ∧ (recordAt base 1).role = .order
      ∧ (base.tbl.entry 1).roleOf = .order ∧ base.tbl.matching .cab (tel 0x70 []) = some 1
      ∧ (recordAt base 1).mark 0 = some .resumed ∧ asOrder (.inquire src) = some (src, .inquire, [])
      ∧ OrderName.inquire.code = 0x70 ∧ OrderName.inquire ≠ .load ∧ (∀ name : OrderName, name.code ≠ 0xFF)
      ∧ OrderName.setValue.code = 0x15 ∧ ([7, 0] : Bytes).length < OrderName.setValue.argBytes
      ∧ Ready (base.mapSource 1 (fun y => y.accept 0 .resumed base.time (base.tbl.entry 1).staleTimeout)) src pos := by
  refine ⟨rfl, by decide, by decide, by decide, by decide, by decide, ?_, by decide, rfl, rfl, by decide, ?_, rfl, by decide, ?_⟩
  · decide +kernel
  · intro n; cases n <;> decide
  · exact ready_of rfl rfl base_positions

/-- A reply position at the end of its reply, whose last telegram waits at the cab port while another is on the line;
beside it a departing position, and a new one that holds an order until the departing one has ended. -/
def queuedPos : Position := { pos with queued := true }
def heldOrder : HeldOrder := ⟨9, 0x70, []⟩
def freshPos : Position := { pos with pid := 1, fresh := true, held := some heldOrder }
def lastReply : ReplyFragment := ⟨0, ⟨9, 0x72, .done, .empty⟩, 0⟩
def settling' (l : List Position) : State :=
  { waitingOn [.reply lastReply] [] base with orders := { base.orders with positions := l } }

theorem witness_PositionsSettle :
    (∀ y ∈ [queuedPos, { queuedPos with deferred := some lastReply.reply }, { queuedPos with held := some heldOrder },
        { queuedPos with departing := true }],
      ∀ l ∈ [[], [freshPos], [{ queuedPos with pid := 2, departing := true }]],
        let s := settling' (y :: l)
        s.phase = .running ∧ s.orders.restarting = false ∧ s.orders.reported = some s.statusKey
          ∧ s.orders.positions.length ≤ 8 ∧ (s.port .cab).tx.isSome = true ∧ (s.port .cab).own = .reply lastReply :: []
          ∧ lastReply.reply.data.fragments ≤ lastReply.number + 1 ∧ s.position lastReply.pid = some y ∧ y.key.port = .cab
          ∧ y.queued = true ∧ s.orders.positions.filter (fun z => z.pid == y.pid) = [y]
          ∧ s.orders.positions.filter (fun z => z.pid != y.pid) = l ∧ s.orders.slot = none)
      ∧ (settling' [{ queuedPos with held := some heldOrder }]).entryPosition 1 = some { queuedPos with held := some heldOrder }
      ∧ asOrder (.inquire src) = some (src, .inquire, heldOrder.args) ∧ src.tag = heldOrder.tag
      ∧ src.entry.val = queuedPos.entry ∧ OrderName.inquire.code = heldOrder.code
      ∧ (withSlot .saveProfile (settling' [{ queuedPos with departing := true }])).orders.slot = some ⟨.saveProfile, 9, 0⟩
      ∧ (settling' [{ queuedPos with departing := true }, freshPos]).entryPosition 1 = some freshPos
      ∧ freshPos.departing = false ∧ freshPos.deferred = none ∧ freshPos.queued = false := by
  decide

/-- The last departing position beside two new ones that hold an order each, and one QUEUED that holds one too. -/
theorem witness_PositionsSettle_several :
    let first := freshPos
    let second : Position := { freshPos with pid := 2, entry := 3 }
    let third : Position := { queuedPos with pid := 3, entry := 4, held := some heldOrder }
    let others := [first, second, third]
    let s := settling' (others ++ [{ queuedPos with departing := true }])
    s.phase = .running ∧ s.orders.restarting = false ∧ s.orders.reported = some s.statusKey ∧ s.orders.positions.length ≤ 8
      ∧ s.position lastReply.pid = some { queuedPos with departing := true }
      ∧ s.orders.positions.filter (fun z => z.pid != 0) = others
      ∧ (∀ x ∈ others, x.departing = false ∧ (x = first ∨ x.queued = true ∨ (x.deferred = none ∧ x.fresh = true ∧ 1 < x.entry)))
      ∧ (others.map Position.entry).Pairwise (· < ·) ∧ s.entryPosition first.entry = some first
      ∧ first.held = some heldOrder ∧ s.orders.slot = none := by decide

/-- A data telegram is accepted when its record and entry are the factory set's and its sequence follows on. -/
theorem accepts_of {s : State} {x : SourceRecord} {seq : U8} {payload : Bytes} {m : Mark} (h1 : s.phase = .running)
    (h2 : s.roleRecord x.role = some x) (h3 : s.sources.find? (fun y => y.entry == x.entry) = some x)
    (h4 : (99 : U8) ≠ s.node) (h5 : s.tbl.matching x.key.port (x.telegram 99 seq payload) = some x.entry)
    (h6 : (s.tbl.entry x.entry).roleOf = x.role)
    (h7 : (s.tbl.entry x.entry).actionOf = .observe ∨ (s.tbl.entry x.entry).actionOf = .consume)
    (h8 : contentOk x.role (x.telegram 99 seq payload) = true) (h9 : x.mark seq = some m) :
    Accepts s x 99 seq payload m := ⟨h1, h2, h3, h4, h5, h6, h7, h8, h9⟩

/-- A DEMAND after a gap of the source and one in sequence, in each part state, with consecutive-good counts 0 and 1. -/
theorem witness_DemandTaken :
    (∀ p : PartState, Accepts (inState p) (recordAt base 0) 99 7 (DemandPayload.bytes ⟨6001, 1⟩) .resumed
      ∧ (inState p).noHeld ∧ (inState p).control.partState = p)
      ∧ (recordAt base 0).role = .demand
      ∧ (let s := freshened .demand 500 { inState .fallback with control := { (inState .fallback).control with goodCount := 1 } }
        Accepts s (recordAt s 0) 99 1 (DemandPayload.bytes ⟨6000, 0⟩) .inSequence ∧ s.control.goodCount = 1) := by
  refine ⟨fun p => ⟨accepts_of rfl ?_ ?_ ?_ ?_ ?_ ?_ ?_ ?_, noHeld_of base_positions, rfl⟩, by decide, accepts_of rfl ?_ ?_ ?_ ?_ ?_ ?_ ?_ ?_, rfl⟩
    <;> first | decide +kernel | (cases p <;> decide +kernel)

/-- Speed samples: the first one, and continuous ones 1 and 200 ms on; with 0 and 201 ms there is a discontinuity. -/
theorem witness_SpeedSampleTaken :
    (recordAt base 2).role = .speed
      ∧ Accepts base (recordAt base 2) 99 0 (SpeedPayload.bytes ⟨5, PerAxle.const 800, 0x3F⟩) .resumed ∧ base.noHeld
      ∧ base.slide.lastSampleTime = none
      ∧ [5, 6, 205, 206].map (fun (time : U16) => (time - 5).toNat) = [0, 1, 200, 201]
      ∧ (let s := { base with slide := { base.slide with lastSampleTime := some 5 } }
        Accepts s (recordAt base 2) 99 0 (SpeedPayload.bytes ⟨205, PerAxle.const 800, 0x3F⟩) .resumed
          ∧ s.slide.lastSampleTime = some 5) := by
  refine ⟨by decide, accepts_of rfl ?_ ?_ ?_ ?_ ?_ ?_ ?_ ?_, noHeld_of base_positions, rfl, by decide,
    accepts_of rfl ?_ ?_ ?_ ?_ ?_ ?_ ?_ ?_, rfl⟩ <;> decide +kernel

theorem witness_ReportsTaken :
    (recordAt base 3).role = inverterRole .a ∧ (recordAt base 4).role = inverterRole .b ∧ base.noHeld
      ∧ Accepts base (recordAt base 3) 99 0 (EffortPayload.bytes ⟨⟨1, 2, 0⟩, ⟨3, 4, 1⟩, ⟨5, 6, 0⟩⟩) .resumed
      ∧ Accepts base (recordAt base 4) 99 0 (EffortPayload.bytes ⟨⟨1, 2, 0⟩, ⟨3, 4, 0⟩, ⟨5, 6, 0⟩⟩) .resumed := by
  refine ⟨by decide, by decide, noHeld_of base_positions, accepts_of rfl ?_ ?_ ?_ ?_ ?_ ?_ ?_ ?_,
    accepts_of rfl ?_ ?_ ?_ ?_ ?_ ?_ ?_ ?_⟩ <;> decide +kernel

/-- A pressure report with a valid feedback at the threshold of a calibration in STEP, and one below it. -/
theorem witness_ReportsTaken_pressure :
    (recordAt base 5).role = .pressure ∧ base.noHeld ∧ base.builder.calibration = none
      ∧ (withCal stepping base).builder.calibration = some stepping ∧ stepping.phase = .step ∧ settling.phase = .settle
      ∧ stepping.threshold ≤ (184 : U16).toNat ∧ (183 : U16).toNat < stepping.threshold
      ∧ (1 : U8).getLsbD 0 = true ∧ (184 : U16).toNat ≤ 1000
      ∧ Accepts (withCal stepping base) (recordAt base 5) 99 0 (PressurePayload.bytes ⟨184, 0, 1⟩) .resumed
      ∧ Accepts base (recordAt base 5) 99 0 (PressurePayload.bytes ⟨1000, 1001, 3⟩) .resumed := by
  refine ⟨by decide, noHeld_of base_positions, rfl, rfl, rfl, rfl, by decide, by decide, by decide, by decide,
    accepts_of rfl ?_ ?_ ?_ ?_ ?_ ?_ ?_ ?_, accepts_of rfl ?_ ?_ ?_ ?_ ?_ ?_ ?_ ?_⟩ <;> decide +kernel

/-! ### Witnesses: deadlines -/

/-- Each role's record at its stale deadline, link time 500; and no such record before it. -/
theorem witness_SourceGoesStale :
    (∀ r ∈ [(Role.demand, 0), (.order, 1), (.speed, 2), (.inverterA, 3), (.inverterB, 4), (.pressure, 5)],
      let s := atTime 500 (freshened r.1 500 base)
      s.phase = .running ∧ s.orders.positions = [pos] ∧ (recordAt s r.2).role = r.1
        ∧ s.sources.find? (fun y => y.entry == r.2) = some (recordAt s r.2) ∧ (recordAt s r.2).freshness = .fresh
        ∧ (recordAt s r.2).deadline = some s.time)
      ∧ (∀ x ∈ (atTime 499 (freshened .demand 500 base)).sources,
          ¬(x.entry = 0 ∧ x.freshness = .fresh ∧ x.deadline = some (499 : LinkTime)))
      ∧ (atTime 499 (freshened .demand 500 base)).noHeld := by
  refine ⟨by decide, by decide, noHeld_of base_positions⟩

theorem witness_DeadlinesExpire :
    (∀ p : PartState, let s := atTime 60 (withTimer (.waiting 60) (inState p))
      s.phase = .running ∧ s.noHeld ∧ s.control.timer = .waiting s.time ∧ s.control.partState = p)
      ∧ (∀ p : PartState, let s := atTime 80 (withTimer (.repeating 80) (inState p))
        s.control.timer = .repeating s.time ∧ s.control.partState = p)
      ∧ (atTime 59 (withTimer (.waiting 60) base)).control.timer ≠ .waiting 59
      ∧ (atTime 79 (withTimer (.repeating 80) base)).control.timer ≠ .repeating 79 := by
  refine ⟨fun p => ⟨rfl, noHeld_of base_positions, rfl, rfl⟩, fun p => ⟨rfl, rfl⟩, by decide, by decide⟩

theorem witness_DeadlinesExpire_timers :
    let s : State :=
      { atTime 1000 base with
        builder :=
          { base.builder with
            trucks := ⟨⟨.vent, none, some 1000⟩, ⟨.vent, none, some 1001⟩⟩
            supervision := ⟨⟨.armed 1000, 30⟩, ⟨.late, 30⟩⟩ } }
    s.phase = .running ∧ s.noHeld ∧ s.slide.recoveryDeadline = s.time ∧ (atTime 999 base).slide.recoveryDeadline ≠ 999
      ∧ (s.builder.trucks.get .a).action = .vent ∧ (s.builder.trucks.get .a).vent = some s.time
      ∧ (s.builder.trucks.get .b).vent ≠ some s.time ∧ (s.builder.supervision.get .a).state = .armed s.time
      ∧ (s.builder.supervision.get .b).state ≠ .armed s.time := by
  refine ⟨rfl, noHeld_of base_positions, rfl, by decide, rfl, rfl, by decide, rfl, by decide⟩

theorem witness_CalibrationEnds :
    (∀ c ∈ [settling, stepping], let s := withSlot .calibrate (withCal c (inState .maintenance))
      s.phase = .running ∧ s.noHeld ∧ s.builder.calibration = some c ∧ s.control.partState = .maintenance
        ∧ s.orders.slot = some ⟨.calibrate, 9, 0⟩)
      ∧ settling.since + 500 = 500 ∧ settling.since + 500 ≠ 499 ∧ stepping.since + 5000 = 5000
      ∧ stepping.since + 5000 ≠ 4999 ∧ base.builder.calibration = none ∧ 65535 < 65536 ∧ base.tables.staging = .idle
      ∧ (withStaging (.pendingSwitch factorySet 0) base).tables.staging = .pendingSwitch factorySet 0
      ∧ (withStaging (.loading factorySet) base).tables.staging = .loading factorySet
      ∧ (withStaging (.awaitDecision factorySet 0 none) base).tables.staging = .awaitDecision factorySet 0 none
      ∧ Truck.a ≠ .b := by
  refine ⟨?_, by decide, by decide, by decide, by decide, rfl, by decide, rfl, rfl, rfl, rfl, by decide⟩
  intro c hc
  exact ⟨rfl, noHeld_of base_positions, rfl, rfl, rfl⟩

theorem witness_StatusEmitted :
    let s : State := { atTime 200 base with orders := { base.orders with statusDeadline := some 200 } }
    s.phase = .running ∧ s.noHeld ∧ s.orders.statusDeadline = some s.time ∧ base.orders.statusDeadline ≠ some base.time
      ∧ base.orders.reported = some base.statusKey
      ∧ (busy (inState .active)).orders.reported ≠ some (busy (inState .active)).statusKey
      ∧ ((busy (inState .active)).port .cab).tx.isSome = true
      ∧ (let q := (waitingOn [] (List.replicate 12 other) (inState .active)).port .cab
        (∀ c, .partStatus c ∉ q.own) ∧ 12 ≤ q.own.length + q.fwd.length ∧ q.fwd ≠ [] ∧ q.tx.isSome = true)
      ∧ classSummary (raiseIn base.orders.faults .queueDrop) ≠ classSummary base.orders.faults
      ∧ classSummary (raiseIn (raiseIn base.orders.faults .portErrors) .queueDrop)
          = classSummary (raiseIn base.orders.faults .portErrors) := by
  refine ⟨rfl, noHeld_of base_positions, rfl, by decide, by decide, by decide, rfl, ⟨?_, by decide, by decide, rfl⟩, by decide,
    by decide⟩
  intro c h; cases h

/-! ### Witnesses: orders -/

def computed : State := base.compute

theorem witness_InquiriesAnswered :
    Ready base src pos ∧ base.blender.record = none ∧ computed.blender.record.isSome = true ∧ Ready computed src pos := by
  refine ⟨base_ready, rfl, by decide, ready_of (by decide) (by decide) (by decide)⟩

def ringOf (l : List Sample) : State := { base with capture := { base.capture with ring := l } }
def awaiting (r : Option CheckFailure) : State := withStaging (.awaitDecision factorySet 0 r) base

theorem witness_InquiriesAnswered_arguments :
    Ready base src pos ∧ (∀ x ∈ base.sources, x.entry ≠ (6 : U8).toNat)
      ∧ base.sources.find? (fun y => y.entry == (5 : U8).toNat) = some (recordAt base 5)
      ∧ (8 < (9 : U8).toNat ∧ (6 : U8).toNat = Axle.e6.bit + 1 ∧ (8 : U8).toNat = truckNumber .b)
      ∧ 2 ≤ (2 : U8).toNat ∧ base.tables.staging = .idle ∧ Sect.ofCode 0 = none ∧ Sect.ofCode 9 = none
      ∧ Sect.ofCode 8 = some .recorder ∧ (32 : U8).toNat < Sect.classify.items ∧ (4 : U8).toNat ≤ Sect.classify.mostPerLoad
      ∧ Sect.classify.items ≤ (33 : U8).toNat ∧ Sect.classify.mostPerLoad < (5 : U8).toNat
      ∧ (withStaging (.loading factorySet) base).tables.staging = .loading factorySet
      ∧ (awaiting none).tables.staging = .awaitDecision factorySet 0 none ∧ pendingSwitch.tables.staging ≠ .idle
      ∧ base.capture.ring = [] ∧ 1 = (3 : U16).toNat % (ringOf [sample0, sample0]).capture.ring.length
      ∧ (ringOf [sample0, sample0]).capture.ring.reverse[1]? = some sample0 ∧ (2 : U8) ≠ 1 := by
  refine ⟨base_ready, by decide, by decide, by decide, by decide, rfl, rfl, rfl, rfl, by decide, by decide, by decide,
    by decide, rfl, rfl, by decide, rfl, by decide, rfl, by decide⟩

theorem witness_CountsReadAndCleared : Ready base src pos ∧ (0 : U8) = 0 ∧ (1 : U8) ≠ 0 :=
  ⟨base_ready, rfl, by decide⟩

/-- A demand present, the train at rest, and control with a demand and without. -/
def present (s : State) : State := freshened .speed 500 (freshened .demand 500 s)

theorem witness_PartStateOrders :
    (∀ p, Ready (present (inState p)) src pos ∧ (present (inState p)).control.partState = p
        ∧ (present (inState p)).roleFreshness .demand = .fresh ∧ (present (inState p)).roleFreshness .speed = .fresh
        ∧ (present (inState p)).slide.vref = 0 ∧ (∀ d, (present (inState p)).control.timer ≠ .repeating d))
      ∧ base.roleFreshness .demand ≠ .fresh ∧ base.roleFreshness .speed ≠ .fresh
      ∧ (inState .active).control.demand = none
      ∧ (withDemand ⟨1, false, 1, 0⟩ (inState .active)).control.demand = some ⟨1, false, 1, 0⟩
      ∧ (∀ x crc, (inState .active).tables.staging ≠ .pendingSwitch x crc)
      ∧ pendingSwitch.tables.staging = .pendingSwitch factorySet 0 ∧ Ready pendingSwitch src pos
      ∧ (pendingSwitch.switchTo factorySet 0 false).orders.positions = pendingSwitch.orders.positions
      ∧ (inState .maintenance).builder.calibration = none
      ∧ (let s := withSlot .calibrate (withCal settling (inState .maintenance))
        s.builder.calibration = some settling ∧ s.orders.slot = some ⟨.calibrate, 9, 0⟩ ∧ s.position 0 = some pos
          ∧ pos.queued = false ∧ Ready s src pos)
      ∧ base.orders.positions.length ≤ 8 ∧ (base.orders.positions.map (fun q => q.pid)).Nodup
      ∧ (∀ q ∈ base.orders.positions, q.pid < base.orders.nextPid) := by
  refine ⟨fun p => ⟨ready_of rfl rfl base_positions, rfl, ?_, ?_, rfl, ?_⟩, by decide, by decide, rfl, rfl, ?_, rfl,
    ready_of rfl rfl base_positions, by decide, rfl, ⟨rfl, rfl, by decide, rfl, ready_of rfl rfl base_positions⟩, by decide,
    by decide, by decide⟩
  · cases p <;> decide
  · cases p <;> decide
  · intro d h; cases h
  · intro x crc h; cases h

def truckMode (m : Mode) (s : State) : State :=
  { s with control := { s.control with trucks := { s.control.trucks with a := ⟨m, 0⟩ } } }
def absentAxle : TableSet := { factorySet with axleBlock := ⟨7, 0x3E, PerAxle.const 1000⟩ }
def under (x : TableSet) (s : State) : State := { s with tables := { s.tables with active := ⟨x, 0, 0⟩ } }

/-- A calibration of truck A for another source than the order's: its own position is CLEAR. -/
def otherPos : Position := { pos with pid := 1, entry := 7, key := ⟨.drive, 3, 0x40⟩ }
def calibrating : State :=
  let s := withCal settling (inState .maintenance)
  { s with orders := { s.orders with slot := some ⟨.calibrate, 9, 1⟩, positions := [pos, otherPos] } }

theorem witness_ChannelOrdersJudged_abort :
    calibrating.position 1 = some otherPos ∧ otherPos.queued = false ∧ otherPos.pid ≠ pos.pid
      ∧ calibrating.entryPosition src.entry.val = some pos ∧ calibrating.position pos.pid = some pos
      ∧ calibrating.phase = .running ∧ calibrating.orders.restarting = false ∧ pos.queued = false
      ∧ (∀ q ∈ calibrating.orders.positions, q.held = none ∧ q.deferred = none ∧ q.departing = false)
      ∧ calibrating.builder.calibration = some settling ∧ Channel.ofByte 7 = some (.truck settling.truck) := by decide

theorem witness_ChannelOrdersJudged :
    Ready base src pos ∧ Channel.ofByte 0 = none ∧ Channel.ofByte 9 = none ∧ Channel.ofByte 1 = some (.axle .e1)
      ∧ Channel.ofByte 8 = some (.truck .b) ∧ Channel.ofByte 7 = some (.truck .a) ∧ 3 ≤ (3 : U8).toNat
      ∧ Mode.ofByte 2 = some .manual ∧ Mode.ofByte 0 = some .off ∧ Mode.manual ≠ .calibrate
      ∧ base.tbl.present .e1 = true ∧ (under absentAxle base).tbl.present .e1 = false
      ∧ base.control.partState ≠ .maintenance ∧ (inState .maintenance).control.partState = .maintenance
      ∧ (base.channel (.truck .a)).mode = .auto
      ∧ (truckMode .manual (inState .maintenance)).channel (.truck .a) = ⟨.manual, 0⟩
      ∧ (withCal settling (inState .maintenance)).builder.calibration = some settling ∧ settling.truck = .a
      ∧ Ready (withCal settling (inState .maintenance)) src pos ∧ Ready (under absentAxle base) src pos := by
  refine ⟨base_ready, rfl, rfl, rfl, rfl, rfl, by decide, rfl, rfl, by decide, by decide, by decide, by decide, rfl, rfl, rfl,
    rfl, rfl, ready_of rfl rfl base_positions, ready_of rfl rfl base_positions⟩

theorem witness_AttentionCleared :
    Ready base src pos ∧ (0x40 : U8).getLsbD 6 = true ∧ (0x80 : U8).getLsbD 7 = true ∧ (0x3F : U8).getLsbD 6 = false
      ∧ (0x3F : U8).getLsbD 7 = false := by
  refine ⟨base_ready, ?_, ?_, ?_, ?_⟩ <;> decide

theorem witness_CalibrationStarts :
    let s := truckMode .manual (freshened .pressure 500 (inState .maintenance))
    Ready s src pos ∧ s.orders.slot = none ∧ s.control.partState = .maintenance ∧ s.slide.vref = 0
      ∧ (s.control.trucks.get .a).mode = .manual ∧ (s.builder.trucks.get .a).action = .normal
      ∧ s.roleFreshness .pressure = .fresh ∧ (7 : U8).toNat = truckNumber .a ∧ (9 : U8) ≠ 7 ∧ (9 : U8) ≠ 8
      ∧ base.control.partState ≠ .maintenance := by
  refine ⟨ready_of rfl rfl base_positions, ?_, ?_, ?_, ?_, ?_, ?_, ?_, ?_, ?_, ?_⟩ <;> decide

/-! ### Witnesses: the table store -/

/-- Two items from the last one on, with the wrap to item 0; the three staging states in which LOAD differs; and
items that are too few, too many, or from an index beyond the section. -/
theorem witness_LoadsWritten :
    let reach := (List.range 2).map (fun k => (32 + k) % Sect.classify.items)
    Ready base src pos ∧ base.tables.staging = .idle
      ∧ (withStaging (.loading factorySet) base).tables.staging = .loading factorySet
      ∧ (∀ x, (awaiting none).tables.staging ≠ .loading x) ∧ (awaiting none).tables.staging ≠ .idle
      ∧ Sect.ofCode 1 = some .classify ∧ Sect.ofCode 9 = none ∧ 32 < Sect.classify.items ∧ 2 ≤ Sect.classify.mostPerLoad
      ∧ reach = [32, 0] ∧ (List.replicate 11 (1 : U8)).length = (reach.map Sect.classify.itemSize).sum
      ∧ (List.replicate 10 (1 : U8)).length ≠ (reach.map Sect.classify.itemSize).sum ∧ ¬ 33 < Sect.classify.items
      ∧ factorySet.entries.length = 32 ∧ (∀ i ∈ reach, i < Sect.classify.items) ∧ reach = [] ++ 32 :: [0] ∧ 32 ∉ [0]
      ∧ 1 < Sect.classify.items ∧ 1 ∉ reach := by
  refine ⟨base_ready, rfl, rfl, ?_, by decide, ?_⟩
  · intro x h; cases h
  · decide

theorem witness_AcceptDecides :
    (∀ p, Ready (withStaging (.awaitDecision factorySet 0 none) (inState p)) src pos
        ∧ (withStaging (.awaitDecision factorySet 0 none) (inState p)).control.partState = p)
      ∧ (awaiting (some failing)).tables.staging = .awaitDecision factorySet 0 (some failing)
      ∧ (∀ x crc r, base.tables.staging ≠ .awaitDecision x crc r) ∧ Ready base src pos
      ∧ ((awaiting none).switchTo factorySet 0 false).orders.positions = (awaiting none).orders.positions
      ∧ base.orders.positions.length ≤ 8 ∧ (base.orders.positions.map (fun q => q.pid)).Nodup
      ∧ (∀ q ∈ base.orders.positions, q.pid < base.orders.nextPid) := by
  refine ⟨fun p => ⟨ready_of rfl rfl base_positions, rfl⟩, rfl, ?_, base_ready, by decide, by decide, by decide, by decide⟩
  intro x crc r h; cases h

/-- A set without the factory set's DEMAND and SPEED entries and with an ORDER entry moved, and a FRESH record whose
deadline under the new set has passed. -/
def moved : TableSet :=
  { factorySet with
    entries := [ClassEntry.empty, ⟨0, 3, 0x40, 2, 6, 10000⟩, ClassEntry.empty, ⟨1, 21, 0x21, 2, 3, 1⟩] ++ List.replicate 28
      ClassEntry.empty
    axleBlock := ⟨7, 0x3E, PerAxle.const 900⟩ }

theorem witness_SwitchRebuilds :
    let s := present base
    let r := freshened .inverterA 500 (atTime 2 base)
    let t := s.switchTo moved 0 false
    3 < 32 ∧ (moved.entry 3).roled = true ∧ (moved.entry 3).key = some ⟨.drive, 21, 0x21⟩
      ∧ r.sources.find? (fun z => z.key == ⟨.drive, 21, 0x21⟩ && z.role == (moved.entry 3).roleOf) = some (recordAt r 3)
      ∧ (recordAt r 3).freshness = .fresh ∧ (recordAt base 3).freshness ≠ .fresh
      ∧ ((recordAt r 3).lastArrival.map (fun a => a + BitVec.ofNat 32 (max 1 (moved.entry 3).stale.toNat))).any
          (fun a => isAfter a r.time) = false
      ∧ ((recordAt r 3).lastArrival.map (fun a => a + BitVec.ofNat 32 (max 1 (factorySet.entry 3).stale.toNat))).any
          (fun a => isAfter a r.time) = true
      ∧ (∃ y ∈ s.sources, y.role = .demand ∧ y.freshness = .fresh) ∧ (¬ ∃ y ∈ t.sources, y.role = .demand)
      ∧ t.orders.positions.map (fun q => (q.pid, q.departing)) = [(1, false), (0, true)]
      ∧ (s.orders.positions.map (fun q => q.pid)).Nodup ∧ (∀ q ∈ s.orders.positions, q.pid < s.orders.nextPid)
      ∧ ((s.orders.positions.filter (fun q => !q.departing)).map (fun q => q.key)).Nodup ∧ moved.checkKey = none
      ∧ (s.port .drive).own = []
      ∧ [Role.demand, .speed].Sublist [Role.demand, .speed, .inverterA, .inverterB, .pressure]
      ∧ (∀ r ∈ [Role.demand, .speed], (∃ y ∈ s.sources, y.role = r ∧ y.freshness = .fresh)
          ∧ ¬ ∃ y ∈ t.sources, y.role = r ∧ y.freshness = .fresh)
      ∧ (∀ r ∈ [Role.inverterA, .inverterB, .pressure], ¬ ∃ y ∈ s.sources, y.role = r ∧ y.freshness = .fresh) := by
  decide

theorem witness_StagedSetDiscarded :
    Ready (awaiting none) src pos ∧ Ready pendingSwitch src pos ∧ Ready base src pos
      ∧ (awaiting none).tables.staging = .awaitDecision factorySet 0 none
      ∧ pendingSwitch.tables.staging = .pendingSwitch factorySet 0
      ∧ (∀ x crc r, base.tables.staging ≠ .awaitDecision x crc r)
      ∧ (∀ x crc, base.tables.staging ≠ .pendingSwitch x crc)
      ∧ (withStaging (.loading factorySet) base).tables.staging = .loading factorySet
      ∧ (asOrder (.engage src)).isSome = true ∧ (∃ t, exec (.engage src) (withStaging (.loading factorySet) base) = .next t)
      ∧ Sect.ofCode 8 = some .recorder ∧ (0 : U8).toNat < Sect.recorder.items ∧ (1 : U8).toNat ≤ Sect.recorder.mostPerLoad
      ∧ ([4, 1] : Bytes).length = ((List.range 1).map (fun k => Sect.recorder.itemSize ((0 + k) % Sect.recorder.items))).sum := by
  refine ⟨ready_of rfl rfl base_positions, ready_of rfl rfl base_positions, base_ready, rfl, rfl, ?_, ?_, rfl, rfl, ⟨_, rfl⟩,
    rfl, by decide, by decide, rfl⟩
  · intro x crc r h; cases h
  · intro x crc h; cases h

def saving (i : Fin 4) : State :=
  withSlot .saveProfile { base with tables := { base.tables with save := some ⟨i, base.tables.active, 0, 9⟩ } }

theorem witness_ProfilesLoadedAndSaved :
    Ready base src pos ∧ base.orders.slot = none ∧ 4 ≤ (4 : U8).toNat ∧ (3 : U8).toNat < 4 ∧ base.tables.staging = .idle
      ∧ (awaiting none).tables.staging ≠ .idle ∧ base.tables.slots.contents (3 : U8).toNat = none
      ∧ base.tables.slots.contents (0 : U8).toNat = some (0, factorySet) ∧ (3 : U8).toNat = (3 : Fin 4).val
      ∧ (∀ i, Waiting (saving i) ⟨.saveProfile, 9, 0⟩ pos ∧ (saving i).tables.save = some ⟨i, base.tables.active, 0, 9⟩)
      ∧ (3 : Fin 4) ≠ 0 ∧ base.tables.save = none ∧ (saving 0).tables.selection = 0 := by
  refine ⟨base_ready, rfl, by decide, by decide, rfl, by decide, rfl, rfl, rfl, ?_, by decide, rfl, rfl⟩
  exact fun i => ⟨waiting_of _ rfl rfl base_positions rfl, rfl⟩

theorem witness_FaultsKeptAndCleared :
    Ready base src pos ∧ base.phase ≠ .off ∧ ({ base with phase := .off } : State).phase = .off
      ∧ (0x40 : U8).getLsbD 6 = true ∧ (0x3F : U8).getLsbD 6 = false ∧ (0x3F : U8).getLsbD 7 = false := by
  refine ⟨base_ready, ?_, rfl, ?_, ?_, ?_⟩ <;> decide

/-! ### Witnesses: recorder and record store -/

def withRecorder (r : RecorderState) (s : State) : State := { s with capture := { s.capture with recorder := r } }

theorem witness_TriggersAndRecorderOrders :
    (∀ r, Ready (withRecorder r base) src pos ∧ (withRecorder r base).capture.recorder = r)
      ∧ (factorySet.triggers.getD 11 ⟨0, 0, 0, 0⟩).enabled = 0 ∧ (factorySet.triggers.getD 10 ⟨0, 0, 0, 0⟩).enabled ≠ 0
      ∧ ({ base with store := fullStore } : State).store.writable < 127 ∧ 127 ≤ base.store.writable
      ∧ (factorySet.triggers.getD 10 ⟨0, 0, 0, 0⟩).post ≠ 0 ∧ (base.takeTrigger .manual).capture.record.isSome = true
      ∧ Ready (under { factorySet with triggers := List.replicate 12 ⟨0, 1, 0, 0⟩ } base) src pos := by
  refine ⟨fun r => ⟨ready_of rfl rfl base_positions, rfl⟩, by decide, by decide, by decide, by decide, by decide, by decide,
    ready_of rfl rfl base_positions⟩

/-- Directories of 48 entries for the start of a capture: all protected by pins or retention, and with an oldest one that
is not; and a store at work. -/
def entries48 (st : EntryState) : List DirEntry :=
  (List.range 48).map (fun i => { closedEntry with incident := 48 - i, state := st })
def crowded (st : EntryState) : Store := { Store.blank with scan := .done, directory := entries48 st, op := .erase 0 }

theorem witness_TriggersAndRecorderOrders_full :
    48 ≤ (crowded .capturing).directory.length ∧ (∀ d ∈ (crowded .capturing).directory, (crowded .capturing).isProtected 4 d = true)
      ∧ (crowded .closed).directory = (crowded .closed).directory.take 47 ++ { closedEntry with incident := 1 } :: []
      ∧ (crowded .closed).isProtected 4 { closedEntry with incident := 1 } = false
      ∧ (crowded .closed).queue.length < 4 ∧ (crowded .closed).op ≠ .idle ∧ 127 ≤ (crowded .closed).writable
      ∧ base.store.directory.length < 48 ∧ base.capture.recorder = .armed := by decide +kernel

/-- A record of one OPEN page, closed, unclosed or being captured, and the state that holds it. -/
def opened (st : EntryState) : DirEntry :=
  ⟨7, st, .manual, 1, 0, 0, some ⟨0, 0⟩, 1, [0], 0,
    if st = .closed then some ⟨5, 0, 0, .postDone⟩ else none, 0, 0, some ⟨0, 0⟩, false⟩
def storing (e : DirEntry) : State :=
  withStore (fun t =>
    { t with pages := onePage, directory := [e], banks := ⟨.writing, 1, 0, 1⟩ :: List.replicate 15 BankEntry.erased }) base
def cursorAt (k : Option ReadCursor) (s : State) : State := withStore (fun t => { t with cursor := k }) s
def walking (code : OrderName) (w : Walk) (s : State) : State :=
  withSlot code (withStore (fun t => { t with op := .read w.place.addr, job := some (.walk w) }) s)

theorem open_page :
    pageClass (lookupPage onePage 0) = .valid ∧ pageIncident (lookupPage onePage 0) = 7
      ∧ (itemOn (lookupPage onePage 0) 0 0).isSome = true ∧ itemOn (lookupPage onePage 0) 0 1 = none
      ∧ pageNext (lookupPage onePage 0) = 0xFF := by decide +kernel

/-- Readout: the scan, the cursor without entry, with its page and without; records closed (an item beyond the end),
unclosed, capturing and with a dropped OPEN page; and a page read with and without the item on the page. -/
theorem witness_RecordsRead :
    (∀ st, Ready (storing (opened st)) src pos ∧ (storing (opened st)).storeStill
        ∧ (storing (opened st)).store.entry 7 = some (opened st) ∧ (opened st).state = st
        ∧ (opened st).firstPage = some ⟨0, 0⟩)
      ∧ base.orders.slot = none ∧ base.store.job = none ∧ 2 ≤ (2 : U8).toNat ∧ (1 : U8).toNat < 2
      ∧ State.reset.store.scan = .scanning ∧ base.store.scan = .done ∧ base.store.cursor = none
      ∧ base.store.entry 7 = none ∧ (cursorAt (some ⟨7, 0, none⟩) base).store.cursor = some ⟨7, 0, none⟩
      ∧ (cursorAt (some ⟨7, 0, some ⟨⟨0, 0⟩, 0⟩⟩) (storing (opened .closed))).store.cursor
          = some ⟨7, 0, some ⟨⟨0, 0⟩, 0⟩⟩
      ∧ (opened .closed).pre + 5 - (0 + 0) + 1 < 7 ∧ ¬ (opened .closed).pre + 5 - (0 + 0) + 1 < 6
      ∧ (opened .closed).close = some ⟨5, 0, 0, .postDone⟩
      ∧ (opened .unclosed).committed < 1 ∧ decide ((opened .capturing).committed < 1) = true
      ∧ ({ opened .unclosed with openDropped := true } : DirEntry).openDropped = true
      ∧ (∀ code, Waiting (walking code ⟨7, 0, true, ⟨⟨0, 0⟩, 0⟩⟩ (storing (opened .closed))) ⟨code, 9, 0⟩ pos)
      ∧ (walking .readNext ⟨7, 0, true, ⟨⟨0, 0⟩, 0⟩⟩ (storing (opened .closed))).store.op = .read ⟨0, 0⟩
      ∧ (walking .readNext ⟨8, 0, true, ⟨⟨0, 0⟩, 0⟩⟩ (storing (opened .closed))).store.entry 8 = none
      ∧ (walking .readNext ⟨7, 0, true, ⟨⟨0, 0⟩, 0⟩⟩ (storing (opened .closed))).store.pages = onePage := by
  refine ⟨?_, rfl, rfl, by decide, by decide, rfl, rfl, rfl, rfl, rfl, rfl, by decide, by decide, rfl, by decide, by decide,
    rfl, ?_, rfl, by decide, rfl⟩
  · intro st
    refine ⟨ready_of rfl rfl base_positions, still_of rfl rfl ?_ rfl rfl, by cases st <;> decide, rfl, rfl⟩
    cases st <;> decide
  · exact fun code => waiting_of _ rfl rfl base_positions rfl

/-- The record's CLOSE page waits for the operation in progress: an item not yet committed, and one that is; and a page
read that ends with a page to commit in the WRITING bank. -/
theorem witness_RecordsRead_closing :
    let q : QueuedPage := ⟨⟨7, 1, .closing closeData⟩, 0⟩
    let waits := fun op s => withStore (fun t => { t with queue := [q], op := op }) s
    let w : Walk := ⟨7, 1, true, ⟨⟨0, 0⟩, 0⟩⟩
    let reads := walking .readNext w (waits (.read ⟨0, 0⟩) (storing (opened .closed)))
    (waits (.erase 3) (storing (opened .closed))).storeStill ∧ Ready (waits (.erase 3) (storing (opened .closed))) src pos
      ∧ (waits (.erase 3) (storing (opened .closed))).store.entry 7 = some (opened .closed)
      ∧ (opened .closed).close.isSome = true ∧ q ∈ (waits (.erase 3) base).store.queue ∧ q.page.incident = 7
      ∧ decide ((opened .closed).committed < 1) = true
      ∧ Waiting reads ⟨.readNext, 9, 0⟩ pos ∧ reads.store.op = .read ⟨0, 0⟩ ∧ reads.store.job = some (.walk w)
      ∧ reads.store.scan = .done ∧ reads.capture.record = none ∧ 2 ≤ reads.store.roomBanks ∧ reads.store.erases = []
      ∧ reads.store.queue ≠ [] ∧ reads.store.bankIs .writing 0 = true ∧ (∀ j < 0, reads.store.bankIs .writing j = false) := by
  refine ⟨⟨rfl, by decide, .inl (by intro h; cases h)⟩, ready_of rfl rfl base_positions, by decide, rfl,
    List.mem_singleton.mpr rfl, rfl, by decide, waiting_of _ rfl rfl base_positions rfl, rfl, rfl, rfl, rfl, by decide, rfl, ?_,
    by decide, by decide⟩
  intro h; cases h

/-- READ_NEXT at a cursor on the OPEN page of a record, whose item is used up there: with each next code the record's page
stays its own, and the item lies beyond it. -/
theorem witness_RecordsRead_cursor :
    let k : ReadCursor := ⟨7, 1, some ⟨⟨0, 0⟩, 0⟩⟩
    (∀ st, Ready (cursorAt (some k) (storing { opened st with committed := 1 })) src pos
        ∧ (cursorAt (some k) (storing { opened st with committed := 1 })).storeStill
        ∧ (cursorAt (some k) (storing { opened st with committed := 1 })).store.entry 7 = some { opened st with committed := 1 })
      ∧ (opened .closed).close.isSome = true ∧ ¬ (opened .closed).pre + 5 - (0 + 0) + 1 < k.item
      ∧ (∀ c ∈ ([0xFF, 0xFE, 0x10, 0xFC, 0xFD, 0x0F, 0x00] : List U8),
          let b := (lookupPage onePage 0).set 9 c
          pageClass b = .valid ∧ pageIncident b = 7 ∧ itemOn b 0 1 = none ∧ pageNext b = c)
      ∧ pageIncident (lookupPage onePage 0) ≠ 8 := by
  refine ⟨?_, rfl, by decide, ?_, ?_⟩
  · intro st
    refine ⟨ready_of rfl rfl base_positions, still_of rfl rfl ?_ rfl rfl, by cases st <;> decide⟩
    cases st <;> decide
  · decide +kernel
  · decide +kernel

/-- Next codes at the bounds of their ranges, on the OPEN page of the record. -/
theorem witness_RecordsRead_next :
    [0xFE, 0x10, 0xFC, 0xFD, 0x0F, 0x00].map (fun (c : U8) => pageNext ((lookupPage onePage 0).set 9 c))
      = [0xFE, 0x10, 0xFC, 0xFD, 0x0F, 0x00] := by decide +kernel

theorem witness_DirectoryOrders :
    let pinning := fun l => withStore (fun t => { t with pins := l }) (storing (opened .closed))
    let clearing := withStore (fun t => { t with directory := List.replicate 5 (opened .unclosed) })
      { storing (opened .closed) with control := { base.control with partState := .maintenance } }
    (∀ l, Ready (pinning l) src pos ∧ (pinning l).store.scan = .done ∧ (pinning l).storeStill
        ∧ ∃ e ∈ (pinning l).store.directory, e.incident = 7)
      ∧ (∀ e ∈ base.store.directory, e.incident ≠ 7) ∧ 7 ∈ (pinning [7]).store.pins ∧ 7 ∉ (pinning []).store.pins
      ∧ 8 ≤ (pinning [1, 2, 3, 4, 5, 6, 8, 9]).store.pins.length ∧ 7 ∉ (pinning [1, 2, 3, 4, 5, 6, 8, 9]).store.pins
      ∧ (pinning [1, 2, 3, 4, 5, 6, 8]).store.pins.length < 8 ∧ base.orders.slot = none ∧ base.store.job = none
      ∧ Ready ({ base with store := Store.blank } : State) src pos
      ∧ Store.blank.scan = .scanning ∧ base.control.partState ≠ .maintenance
      ∧ Ready (inState .maintenance) src pos ∧ (inState .maintenance).storeStill
      ∧ (List.range 16).filter (fun i =>
          (base.store.bankIs .filled i || base.store.bankIs .writing i) && !base.store.bankProtected 4 i) = []
      ∧ Ready clearing src pos ∧ clearing.storeStill
      ∧ (List.range 16).filter (fun i =>
          (clearing.store.bankIs .filled i || clearing.store.bankIs .writing i)
            && !(clearing.store.removeEntries (fun e => !clearing.store.isProtected 0 e)).bankProtected 0 i) = 0 :: [] := by
  have room : 2 ≤ (storing (opened .closed)).store.roomBanks := by decide
  refine ⟨fun l => ⟨ready_of rfl rfl base_positions, rfl, still_of rfl rfl room rfl rfl, opened .closed,
      List.mem_singleton.mpr rfl, rfl⟩, by decide, by decide, by decide, by decide, by decide, by decide, rfl, rfl,
    ready_of rfl rfl base_positions, rfl, by decide, ready_of rfl rfl base_positions, still_of rfl rfl ?_ rfl rfl, ?_,
    ready_of rfl rfl base_positions, still_of rfl rfl ?_ rfl rfl, ?_⟩ <;> decide

/-- A commit of the second page of a record, onto the page after its first and onto another bank. -/
def second : QueuedPage := ⟨⟨7, 1, .closing closeData⟩, 0⟩
def linkable (bank : Nat) : Store :=
  { (storing (opened .capturing)).store with
    op := .commit ⟨bank, 1⟩, queue := [second]
    banks := [⟨.writing, 1, 1, 63⟩, ⟨.writing, 1, 0, 1⟩] ++ List.replicate 14 BankEntry.erased }

theorem onePage_wf : pagesWf onePage = true := by decide +kernel

theorem witness_CommitsEnd :
    (∀ b : Nat, pagesWf (linkable b).pages = true ∧ (linkable b).banks.length = 16 ∧ (linkable b).entry 7 = some (opened .capturing)
        ∧ (linkable b).op = .commit ⟨b, 1⟩ ∧ (linkable b).queue = second :: [])
      ∧ 15 < 16 ∧ (List.replicate 590 (0 : U8)).length = 590 ∧ (∀ d, second.page.body ≠ .opening d)
      ∧ (opened .capturing).lastPage = some ⟨0, 0⟩ ∧ (⟨0, 0⟩ : PageAddr).key ≠ (⟨0, 1⟩ : PageAddr).key
      ∧ (0x10 : U8).toNat < 0xFD ∧ 0x0F < (0x10 : U8).toNat ∧ 63 ≤ ((linkable 0).bank 0).pointer
      ∧ 2 ≤ ((linkable 0).bank 0).mismatch + 1 ∧ ((linkable 0).bank 1).mismatch + 1 < 2
      ∧ ((1 :: List.replicate 589 (0 : U8)).take 9).all (fun b => b == 0) = false
      ∧ ((List.replicate 590 (0 : U8)).take 9).all (fun b => b == 0) = true
      ∧ second.attempts + 1 < 3 ∧ 3 ≤ ({ second with attempts := 2 } : QueuedPage).attempts + 1
      ∧ ({ base with store := linkable 0 } : State).noHeld := by
  refine ⟨fun b => ⟨onePage_wf, by simp [linkable], rfl, rfl, rfl⟩, by decide, by decide +kernel, ?_, rfl, by decide,
    by decide, by decide, by decide, by decide, by decide, by decide, by decide, by decide, by decide,
    noHeld_of base_positions⟩
  intro d h; cases h

def erasing (s : State) : State := withStore (storeAt (.erase 0)) s
def clearingLast (banks : List Nat) : State :=
  withSlot .clearStore (withStore (fun t => { t with job := some (.clearing 1 banks 0 0) }) (erasing base))

theorem witness_ErasesEnd :
    pagesWf fullStore.pages = true ∧ fullStore.banks.length = 16
      ∧ (∀ x ∈ [(63, List.replicate 590 (0 : U8))], x.1 < 64 ∧ x.2.length = 590) ∧ isErased (List.replicate 590 0) = false
      ∧ [(63, List.replicate 590 (0 : U8))].Pairwise (fun x y => x.1 ≠ y.1)
      ∧ (erasing base).phase = .running ∧ (erasing base).noHeld ∧ (erasing base).store.op = .erase 0
      ∧ (∀ r bs e f, (erasing base).store.job ≠ some (.clearing r bs e f))
      ∧ ([2] : List Nat) ≠ [] ∧ [2].contains 0 = false ∧ (clearingLast [2]).store.job = some (.clearing 1 [2] 0 0)
      ∧ (clearingLast [0]).store.job = some (.clearing 1 [0] 0 0) ∧ [0].filter (fun j => j != 0) = []
      ∧ [0, 1].filter (fun j => j != 0) ≠ [] ∧ [0, 1].contains 0 = true
      ∧ Waiting (clearingLast [0]) ⟨.clearStore, 9, 0⟩ pos
      ∧ ({ (clearingLast [0]) with
            store := { ((clearingLast [0]).store.eraseEnds 0 []).1 with job := none }
            orders := { (clearingLast [0]).orders with slot := none } } : State).storeStill
      ∧ (∀ a, base.store.op ≠ .commit a) ∧ (∀ i, base.store.op ≠ .erase i) ∧ (∀ a, base.store.op ≠ .read a) := by
  refine ⟨rfl, rfl, by decide +kernel, by decide +kernel, by decide, rfl, noHeld_of base_positions, rfl, ?_, by decide,
    by decide, rfl, rfl, by decide, by decide, by decide, waiting_of _ rfl rfl base_positions rfl, still_of rfl (by decide +kernel) (by decide +kernel)
      (by decide +kernel) rfl, ?_, ?_, ?_⟩
  all_goals intros; intro h; cases h

/-- An order that finds the slot occupied; positions QUEUED, with and without a held order, and a new one that waits for a
departing one; and RESTART. -/
theorem witness_OrdersHeldBusyOrDiscarded :
    let at' := fun (l : List Position) => ({ base with orders := { base.orders with positions := l } } : State)
    let q := { pos with queued := true }
    let h := { q with held := some ⟨1, 0x10, []⟩ }
    let f : Position := { pos with pid := 1, fresh := true }
    Ready (withSlot .calibrate base) src pos ∧ (withSlot .calibrate base).orders.slot.isSome = true
      ∧ OrderName.isLong .listRecords = true ∧ asOrder (.listRecords src 0) = some (src, .listRecords, [0])
      ∧ asOrder (.restart src) = some (src, .restart, [])
      ∧ (∀ l ∈ [[q], [h], [{ q with departing := true }, f]], (at' l).phase = .running
          ∧ (at' l).orders.reported = some (at' l).statusKey ∧ (at' l).settleStep = none ∧ (at' l).orders.restarting = false)
      ∧ (at' [q]).entryPosition 1 = some q ∧ (at' [h]).entryPosition 1 = some h
      ∧ (at' [{ q with departing := true }, f]).entryPosition 1 = some f ∧ f.fresh = true ∧ q.held = none
      ∧ h.held.isSome = true ∧ restartingState.orders.restarting = true ∧ restartingState.settleStep = none := by
  refine ⟨ready_of rfl rfl base_positions, ?_⟩
  decide

/-- RESTART at a CLEAR position, while others hold orders. -/
theorem witness_OrdersHeldBusyOrDiscarded_restart :
    let l := [pos, { pos with pid := 1, entry := 3, queued := true, held := some ⟨1, 0x10, []⟩ }]
    let s : State := { base with orders := { base.orders with positions := l } }
    s.phase = .running ∧ s.orders.restarting = false ∧ s.entryPosition 1 = some pos ∧ s.position pos.pid = some pos
      ∧ pos.queued = false ∧ pos.fresh = false ∧ ∃ q ∈ s.orders.positions, q.held.isSome = true := by decide

/-! ### One step of commands -/

/-- The next state of a command; the state itself where it stops. -/
def after (c : Instr) (s : State) : State :=
  match exec c s with
  | .next t => t
  | _ => s

/-- R199, R150, R1: a reset, the load at its end, and one millisecond after it. -/
theorem test_power_on_starts :
    (after .startUpLoad State.reset).phase = .running ∧ (after .startUpLoad State.reset).orders.statusDeadline = some 200
      ∧ step base = .next (atTime 1 base) := by
  refine ⟨by decide, by decide, rfl⟩

/-- R13, R3: a forwarded telegram goes out unchanged, and the transmitter then falls idle. -/
theorem test_forwarding :
    let s := after (.telegramReceived .cab (.whole other.bytes)) base
    (s.port .drive).tx = some (.forwarded other) ∧ ((after (.transmissionEnd .drive) s).port .drive).tx = none := by
  decide +kernel

/-- R33, R21, R22: a demand starts the timer; with it ENGAGE takes control, and one more demand is computed. -/
theorem test_engage :
    let s := after (.demand 99 0 1000 0) base
    let t := after (.engage src) s
    let u := after (.demand 99 1 1000 0) t
    s.control.timer = .waiting 60 ∧ t.control.partState = .active ∧ (after (.engage src) base).control.partState = .standby
      ∧ (u.blender.record.map (fun r => (r.demand, r.electric, r.air))) = some (1000, 0, 1000) := by decide +kernel

/-- R84, R89: the first sample seeds the reference speed. -/
theorem test_first_speed :
    (after (.axleSpeed 99 0 5 ⟨1500, 1490, 1480, 1500, 1495, 17000⟩ 0x1F) base).slide.vref = 1500
      ∧ (after (.axleSpeed 99 0 5 ⟨1500, 1490, 1480, 1500, 1495, 17000⟩ 0x3F) base).slide.vref = 16000 := by decide +kernel

/-- R49: a fault makes the limit 0; R195: it sets INVERTER_FAULT. -/
theorem test_inverter_fault :
    let s := after (.effortReport .b 99 0 ⟨10, 500, 0⟩ ⟨20, 600, 1⟩ ⟨30, 700, 0⟩) base
    s.capability.inverters.a4 = ⟨500, 10, false⟩ ∧ s.capability.inverters.a5 = ⟨0, 20, true⟩
      ∧ s.flag .inverterFault = true := by decide +kernel

/-- R120: bit 1 of the valve byte speaks of truck B. -/
theorem test_feedback :
    (after (.cylPressure 99 0 200 1001 3) base).builder.feedback = ⟨.valid 200 0, .invalid⟩
      ∧ (after (.cylPressure 99 0 200 300 2) base).builder.feedback = ⟨.invalid, .valid 300 0⟩ := by decide +kernel

/-- R160, R159: TRIGGER starts incident 1; CLEAR_STORE is for MAINTENANCE. -/
theorem test_trigger :
    (after (.trigger src) base).store.directory.map (fun e => (e.incident, e.kind)) = [(1, .manual)]
      ∧ (after (.trigger src) base).capture.recorder = .capturing := by decide +kernel

/-- R134, R137, R139: one item of RECORDER loaded with the last flag, checked, and accepted. -/
theorem test_load_accept :
    let s := after (.load src 8 0 1 1 [2, 0]) base
    let t := after (.accept src) { s with ports := base.ports, orders := base.orders }
    s.tables.staging.state = .awaitDecision ∧ t.tbl.recorder = ⟨2, 0⟩ ∧ t.tables.active.number = 1 := by decide +kernel
end Sys2Proof.Tests
end

section
/-!
PROOF. The capability curve of a set that passes the CURVE check (R46). The breakpoints in use rise in speed, so the
search along the list reaches, for a speed at or above breakpoint k, the part of the list that begins with breakpoint k
(`TableSet.curve_eq_curveFrom`). Every clause about one segment is then read off the first two points of that part.
-/

namespace Sys2Proof.Machine

/-! ### What the CURVE check gives -/

theorem firstFailing_eq_none_iff (ok : Nat → Bool) (is : List Nat) :
    firstFailing ok is = none ↔ ∀ i ∈ is, ok i = true := by
  simp [firstFailing]

/-- The CURVE check passes when each breakpoint in use and the per-axle block do. -/
theorem TableSet.checkCurve_eq_none_iff (t : TableSet) :
    t.checkCurve = none ↔ (∀ i < min t.curveCount 16, t.pointOk i = true) ∧ t.blockOk = true := by
  have points := firstFailing_eq_none_iff t.pointOk (List.range (min t.curveCount 16))
  simp only [List.mem_range] at points
  rw [← points, TableSet.checkCurve]
  cases firstFailing t.pointOk (List.range (min t.curveCount 16)) with
  | none => simp
  | some i => simp

/-- At least two breakpoints are in use, and each is faster than the one before it. -/
structure TableSet.RisingPoints (t : TableSet) : Prop where
  two_le : 2 ≤ t.curveCount
  rising : ∀ k, k + 1 < t.curveCount → (t.breakpoint k).speed.toNat < (t.breakpoint (k + 1)).speed.toNat

theorem TableSet.pointOk_of_checkCurve {t : TableSet} (h : t.checkCurve = none) {i : Nat} (hi : i < t.curveCount) :
    t.speedOk i = true ∧ t.effortOk i = true := by
  obtain ⟨points, block⟩ := t.checkCurve_eq_none_iff.1 h
  simp only [TableSet.blockOk, Bool.and_eq_true, decide_eq_true_eq] at block
  simpa [TableSet.pointOk] using points i (by omega)

theorem TableSet.risingPoints_of_checkCurve {t : TableSet} (h : t.checkCurve = none) : t.RisingPoints where
  two_le := by
    have block := (t.checkCurve_eq_none_iff.1 h).2
    simp only [TableSet.blockOk, Bool.and_eq_true, decide_eq_true_eq] at block
    omega
  rising k hk := by
    have speed := (TableSet.pointOk_of_checkCurve h hk).1
    simp only [TableSet.speedOk, if_neg (Nat.succ_ne_zero k), Nat.add_sub_cancel, Bool.and_eq_true,
      decide_eq_true_eq] at speed
    exact speed.2

theorem TableSet.effort_le_smallestRating {t : TableSet} (h : t.checkCurve = none) {i : Nat} (hi : i < t.curveCount) :
    (t.breakpoint i).effort.toNat ≤ t.smallestRating := by
  simpa [TableSet.effortOk] using (TableSet.pointOk_of_checkCurve h hi).2

/-! ### The interpolation between two breakpoints -/

section Interpolate
variable {p q : Breakpoint} {x : Nat}

theorem interpolate_start (p q : Breakpoint) : interpolate p q p.speed.toNat = p.effort.toNat := by
  simp [interpolate]

/-- Part of the run times the height, over the width, is at most the height. -/
theorem correction_le {d run width : Nat} (h : run ≤ width) : d * run / width ≤ d :=
  Nat.div_le_of_le_mul (by rw [Nat.mul_comm width]; exact Nat.mul_le_mul_left d h)

/-- R46: between two breakpoints the correction is the quotient rounded toward zero, whether the effort rises or
falls. -/
theorem interpolate_eq_tdiv (hp : p.speed.toNat ≤ x) (hq : x ≤ q.speed.toNat) :
    (interpolate p q x : Int)
      = (p.effort.toNat : Int)
        + Int.tdiv (((q.effort.toNat : Int) - p.effort.toNat) * ((x : Int) - p.speed.toNat))
            ((q.speed.toNat : Int) - p.speed.toNat) := by
  unfold interpolate
  generalize p.effort.toNat = a
  generalize q.effort.toNat = b
  have run : ((x : Int) - p.speed.toNat) = (x - p.speed.toNat : Nat) := (Int.ofNat_sub hp).symm
  have width : ((q.speed.toNat : Int) - p.speed.toNat) = (q.speed.toNat - p.speed.toNat : Nat) :=
    (Int.ofNat_sub (Nat.le_trans hp hq)).symm
  simp only [run, width]
  split
  case isTrue h =>
    rw [← Int.ofNat_sub h, ← Int.natCast_mul, ← Int.ofNat_tdiv, Int.natCast_add]
  case isFalse h =>
    have fall : ((b : Int) - a) = -((a - b : Nat) : Int) := by omega
    have le : (a - b) * (x - p.speed.toNat) / (q.speed.toNat - p.speed.toNat) ≤ a :=
      Nat.le_trans (correction_le (Nat.sub_le_sub_right hq _)) (Nat.sub_le a b)
    rw [fall, Int.neg_mul, Int.neg_tdiv, ← Int.natCast_mul, ← Int.ofNat_tdiv, Int.ofNat_sub le, Int.sub_eq_add_neg]

/-- Because the rounding is toward zero, the value lies between the two efforts (R46). -/
theorem interpolate_between (hq : x ≤ q.speed.toNat) :
    min p.effort.toNat q.effort.toNat ≤ interpolate p q x
      ∧ interpolate p q x ≤ max p.effort.toNat q.effort.toNat := by
  unfold interpolate
  dsimp only
  split
  case isTrue h =>
    have := correction_le (d := q.effort.toNat - p.effort.toNat) (Nat.sub_le_sub_right hq p.speed.toNat)
    generalize (_ / _ : Nat) = correction at this ⊢
    omega
  case isFalse h =>
    have := correction_le (d := p.effort.toNat - q.effort.toNat) (Nat.sub_le_sub_right hq p.speed.toNat)
    generalize (_ / _ : Nat) = correction at this ⊢
    omega

end Interpolate

/-! ### The search along the breakpoints -/

/-- The value never exceeds a bound on the efforts of all breakpoints. -/
theorem curveOn_le {m : Nat} (ps : List Breakpoint) (x : Nat) (h : ∀ p ∈ ps, p.effort.toNat ≤ m) :
    curveOn ps x ≤ m := by
  induction ps, x using curveOn.induct with
  | case1 => exact Nat.zero_le m
  | case2 p _ => exact h p (by simp)
  | case3 p q rest x below => simpa [curveOn, below] using h p (by simp)
  | case4 p q rest x above below =>
    have := (interpolate_between (p := p) (Nat.le_of_lt below)).2
    have := h p (by simp)
    have := h q (by simp)
    simp only [curveOn, above, below, if_true, if_false]
    omega
  | case5 p q rest x above beyond ih =>
    simp only [curveOn, above, beyond, if_false]
    exact ih (fun r hr => h r (List.mem_cons_of_mem p hr))

namespace TableSet
variable {t : TableSet} {k x : Nat}

/-- The curve value over the breakpoints in use from number `k` on. -/
def curveFrom (t : TableSet) (k x : Nat) : Nat :=
  curveOn ((List.range' k (t.curveCount - k)).map t.breakpoint) x

/-- Breakpoints past the end of the list would have speed 0, so where the speeds rise the list holds all breakpoints in
use. -/
theorem RisingPoints.count_le_length (h : t.RisingPoints) : t.curveCount ≤ t.breakpoints.length := by
  have two := h.two_le
  have last := h.rising (t.curveCount - 2) (by omega)
  refine Nat.le_of_not_lt fun short => ?_
  have absent : t.breakpoint (t.curveCount - 2 + 1) = ⟨0, 0⟩ := by
    rw [TableSet.breakpoint, List.getD_eq_getElem?_getD, List.getElem?_eq_none (by omega), Option.getD_none]
  simp [absent] at last

theorem RisingPoints.curve_eq_curveFrom_zero (h : t.RisingPoints) (x : Nat) : t.curve x = t.curveFrom 0 x := by
  have points : t.breakpoints.take t.curveCount = (List.range' 0 (t.curveCount - 0)).map t.breakpoint := by
    have enough := h.count_le_length
    apply List.ext_getElem
    · simp only [List.length_take, List.length_map, List.length_range', Nat.sub_zero]
      exact Nat.min_eq_left enough
    · intro i hi _
      have inside : i < t.breakpoints.length := by rw [List.length_take] at hi; omega
      simp [TableSet.breakpoint, inside]
  rw [TableSet.curve, points, TableSet.curveFrom]

theorem curveFrom_last (hk : k + 1 = t.curveCount) : t.curveFrom k x = (t.breakpoint k).effort.toNat := by
  simp [curveFrom, ← hk, curveOn]

theorem curveFrom_succ (hk : k + 1 < t.curveCount) :
    t.curveFrom k x =
      if x ≤ (t.breakpoint k).speed.toNat then (t.breakpoint k).effort.toNat
      else if x < (t.breakpoint (k + 1)).speed.toNat then interpolate (t.breakpoint k) (t.breakpoint (k + 1)) x
      else t.curveFrom (k + 1) x := by
  obtain ⟨m, here, next⟩ : ∃ m, t.curveCount - k = m + 2 ∧ t.curveCount - (k + 1) = m + 1 :=
    ⟨t.curveCount - k - 2, by omega, by omega⟩
  simp [curveFrom, here, next, List.range'_succ, curveOn]

/-- At or below its first breakpoint the value is that breakpoint's effort. -/
theorem curveFrom_of_le (hk : k < t.curveCount) (hx : x ≤ (t.breakpoint k).speed.toNat) :
    t.curveFrom k x = (t.breakpoint k).effort.toNat := by
  rcases Nat.eq_or_lt_of_le (Nat.succ_le_of_lt hk) with last | more
  · exact curveFrom_last last
  · rw [curveFrom_succ more, if_pos hx]

/-- At or above breakpoint `k` the breakpoints before it do not matter. -/
theorem RisingPoints.curve_eq_curveFrom (h : t.RisingPoints) (hk : k < t.curveCount)
    (hx : (t.breakpoint k).speed.toNat ≤ x) : t.curve x = t.curveFrom k x := by
  induction k with
  | zero => exact h.curve_eq_curveFrom_zero x
  | succ k ih =>
    have faster := h.rising k hk
    rw [ih (by omega) (by omega), curveFrom_succ hk, if_neg (by omega), if_neg (by omega)]

theorem RisingPoints.curve_at (h : t.RisingPoints) (hk : k < t.curveCount) :
    t.curve (t.breakpoint k).speed.toNat = (t.breakpoint k).effort.toNat :=
  (h.curve_eq_curveFrom hk (Nat.le_refl _)).trans (curveFrom_of_le hk (Nat.le_refl _))

theorem RisingPoints.curve_eq_interpolate (h : t.RisingPoints) (hk : k + 1 < t.curveCount)
    (hx : (t.breakpoint k).speed.toNat ≤ x) (hy : x < (t.breakpoint (k + 1)).speed.toNat) :
    t.curve x = interpolate (t.breakpoint k) (t.breakpoint (k + 1)) x := by
  rw [h.curve_eq_curveFrom (by omega) hx, curveFrom_succ hk]
  rcases Nat.eq_or_lt_of_le hx with rfl | above
  · rw [if_pos (Nat.le_refl _), interpolate_start]
  · rw [if_neg (by omega), if_pos hy]

/-- R46: the value depends on the breakpoints in use alone. -/
theorem RisingPoints.curve_congr {u : TableSet} (h : t.RisingPoints) (count : u.curveCount = t.curveCount)
    (same : ∀ i < t.curveCount, u.breakpoint i = t.breakpoint i) (x : Nat) : u.curve x = t.curve x := by
  have hu : u.RisingPoints :=
    ⟨count ▸ h.two_le, fun k hk => by
      rw [same k (by omega), same (k + 1) (by omega)]; exact h.rising k (by omega)⟩
  rw [h.curve_eq_curveFrom_zero, hu.curve_eq_curveFrom_zero, curveFrom, curveFrom, count]
  congr 1
  refine List.map_congr_left fun i hi => same i ?_
  have := List.mem_range'_1.1 hi
  omega

theorem curve_le_smallestRating (h : t.checkCurve = none) (x : Nat) : t.curve x ≤ t.smallestRating := by
  rw [(risingPoints_of_checkCurve h).curve_eq_curveFrom_zero]
  refine curveOn_le _ _ fun p hp => ?_
  obtain ⟨i, hi, rfl⟩ := List.mem_map.1 hp
  refine effort_le_smallestRating h ?_
  have := List.mem_range'_1.1 hi
  omega

end TableSet

/-- Settles O16: each clause at the part of the list that begins with the breakpoint it speaks of. -/
theorem curveInterpolates : Obligations.CurveInterpolates := by
  intro t check n v e
  have rising := TableSet.risingPoints_of_checkCurve check
  have two : 2 ≤ n := rising.two_le
  refine ⟨fun x hx => ?first, fun x hx => ?last, fun k x hk hx hy => ?segment, fun k hk => rising.curve_at hk,
    TableSet.curve_le_smallestRating check, fun u count same => rising.curve_congr count same, ?blender⟩
  case first => rw [rising.curve_eq_curveFrom_zero, TableSet.curveFrom_of_le (by omega) hx]
  case last => rw [rising.curve_eq_curveFrom (by omega) hx, TableSet.curveFrom_last (by omega)]
  case segment =>
    rw [rising.curve_eq_interpolate hk hx hy]
    exact ⟨interpolate_eq_tdiv hx (Nat.le_of_lt hy), interpolate_between (Nat.le_of_lt hy)⟩
  case blender =>
    rintro s rfl
    rfl

end Sys2Proof.Machine
end

section
/-!
PROOF. The grid heat index, the derate factor and the thermal states (R54 to R58): the branches of `derate`,
`thermalNext` and `Capability.heatStep`, the three outcomes of a thermal evaluation, and what CLEAR_FAULTS leaves.
-/

namespace Sys2Proof

theorem PerAxle.sum_ofFn (f : Axle → Nat) : (PerAxle.ofFn f).sum = (Axle.all.map f).sum := by
  simp [PerAxle.ofFn, PerAxle.sum, Axle.all, Nat.add_assoc]

end Sys2Proof

namespace Sys2Proof.Machine

/-! ### The derate factor and the thermal state (R56, R57) -/

/-- The order of the thresholds that the THERM check asks for. -/
theorem ThermalRec.ok_thresholds {r : ThermalRec} (h : r.ok = true) :
    r.hReset.toNat < r.hDerate.toNat ∧ r.hDerate.toNat < r.hTrip.toNat := by
  simp only [ThermalRec.ok, Bool.and_eq_true, decide_eq_true_eq] at h
  obtain ⟨⟨⟨_, resetBelow⟩, derateBelow⟩, _⟩ := h
  exact ⟨resetBelow, derateBelow⟩

section Evaluation
variable {r : ThermalRec} {st : Thermal} {h : Nat}

@[simp] theorem derate_trip (r : ThermalRec) (h : Nat) : derate r .trip h = 0 := rfl

theorem derate_of_le_hDerate (hs : st ≠ .trip) (hd : h ≤ r.hDerate.toNat) : derate r st h = 1024 := by
  rw [derate, if_neg hs, if_pos hd]

theorem derate_of_between (hs : st ≠ .trip) (hd : r.hDerate.toNat < h) (ht : h < r.hTrip.toNat) :
    derate r st h = 1024 * (r.hTrip.toNat - h) / (r.hTrip.toNat - r.hDerate.toNat) := by
  rw [derate, if_neg hs, if_neg (by omega), if_pos ht]

theorem derate_of_hTrip_le (hs : st ≠ .trip) (hd : r.hDerate.toNat < r.hTrip.toNat) (ht : r.hTrip.toNat ≤ h) :
    derate r st h = 0 := by
  rw [derate, if_neg hs, if_neg (by omega), if_neg (by omega)]

/-- Above the derate threshold the factor is below one. -/
theorem derate_lt_of_between (hs : st ≠ .trip) (hd : r.hDerate.toNat < h) (ht : h < r.hTrip.toNat) :
    derate r st h < 1024 := by
  rw [derate_of_between hs hd ht, Nat.div_lt_iff_lt_mul (by omega)]
  omega

theorem thermalNext_trip (r : ThermalRec) (h : Nat) :
    thermalNext r .trip h = if h ≤ r.hReset.toNat then .normal else .trip := rfl

theorem thermalNext_of_ne_trip (hs : st ≠ .trip) :
    thermalNext r st h =
      if r.hTrip.toNat ≤ h then .trip else if r.hDerate.toNat < h then .derate else .normal := by
  cases st with
  | trip => exact absurd rfl hs
  | normal => rfl
  | derate => rfl

end Evaluation

/-! ### A thermal evaluation (R57, R58) -/

/-- How a state `t` stands after a state `s` whose thermal state was evaluated: nothing signalled where the thermal state
stays or becomes NORMAL, the flag of an entry to DERATE, the flag and the trigger of an entry to TRIP. Of the rest only
the capability unit differs. -/
inductive ThermalOutcome (s t : State) : Prop
  | quiet (now : t.capability.thermal = s.capability.thermal ∨ t.capability.thermal = .normal)
      (result : t = { s with capability := t.capability })
  | derated (before : s.capability.thermal ≠ .derate) (now : t.capability.thermal = .derate)
      (result : t = State.setFlag .thermalDerate { s with capability := t.capability })
  | tripped (before : s.capability.thermal ≠ .trip) (now : t.capability.thermal = .trip)
      (result : t = (State.setFlag .thermalTrip { s with capability := t.capability }).takeTrigger .thermalTrip)

theorem State.takeTrigger_capability (k : TriggerKind) (s : State) : (s.takeTrigger k).capability = s.capability :=
  (State.takeTrigger_only k s).capability

theorem State.evaluateThermal_spec (s : State) :
    s.evaluateThermal.capability
        = { s.capability with thermal := thermalNext s.tbl.thermal s.capability.thermal s.capability.heat }
      ∧ ThermalOutcome s s.evaluateThermal := by
  unfold State.evaluateThermal
  dsimp only
  generalize thermalNext s.tbl.thermal s.capability.thermal s.capability.heat = now
  split
  case isTrue same => exact ⟨rfl, .quiet (.inl same) rfl⟩
  case isFalse entered =>
    have before : s.capability.thermal ≠ now := fun h => entered h.symm
    cases now with
    | normal => exact ⟨rfl, .quiet (.inr rfl) rfl⟩
    | derate => exact ⟨rfl, .derated before rfl rfl⟩
    | trip =>
      have kept := State.takeTrigger_capability .thermalTrip
        (State.setFlag .thermalTrip { s with capability := { s.capability with thermal := .trip } })
      refine ⟨kept, .tripped before ?_ ?_⟩
      · rw [kept]; rfl
      · rw [kept]; rfl

namespace ThermalOutcome
variable {s t : State} (o : ThermalOutcome s t)
include o

theorem eq_of_quiet (now : t.capability.thermal = s.capability.thermal ∨ t.capability.thermal = .normal) :
    t = { s with capability := t.capability } := by
  cases o with
  | quiet _ result => exact result
  | derated before is _ => simp [is, before.symm] at now
  | tripped before is _ => simp [is, before.symm] at now

theorem eq_of_derated (before : s.capability.thermal ≠ .derate) (now : t.capability.thermal = .derate) :
    t = State.setFlag .thermalDerate { s with capability := t.capability } := by
  cases o with
  | quiet is _ => simp [now, before.symm] at is
  | derated _ _ result => exact result
  | tripped _ is _ => exact nomatch is.symm.trans now

theorem eq_of_tripped (before : s.capability.thermal ≠ .trip) (now : t.capability.thermal = .trip) :
    t = (State.setFlag .thermalTrip { s with capability := t.capability }).takeTrigger .thermalTrip := by
  cases o with
  | quiet is _ => simp [now, before.symm] at is
  | derated _ is _ => exact nomatch is.symm.trans now
  | tripped _ _ result => exact result

/-- The flags after an evaluation, of those that a trigger leaves alone (R58). -/
theorem flag_iff {f : Flag} (notFull : f ≠ .storeFull) (notDropped : f ≠ .pageDropped) :
    t.flag f = true ↔ s.flag f = true
      ∨ (s.capability.thermal ≠ .derate ∧ t.capability.thermal = .derate ∧ f = .thermalDerate)
      ∨ (s.capability.thermal ≠ .trip ∧ t.capability.thermal = .trip ∧ f = .thermalTrip) := by
  cases o with
  | quiet now result =>
    have same : t.flag f = s.flag f := State.flag_congr (congrArg (·.orders.faults) result) f
    rw [same]
    refine ⟨.inl, ?_⟩
    rintro (h | ⟨before, entered, _⟩ | ⟨before, entered, _⟩)
    · exact h
    · simp [entered, before.symm] at now
    · simp [entered, before.symm] at now
  | derated before now result =>
    have raised : t.flag f = (s.flag f || decide (Flag.thermalDerate = f)) :=
      (congrArg (State.flag · f) result).trans (State.flag_setFlag _ _ _)
    simp [raised, before, now, eq_comm (a := f)]
  | tripped before now result =>
    have raised : t.flag f = (s.flag f || decide (Flag.thermalTrip = f)) :=
      (congrArg (State.flag · f) result).trans
        (((State.takeTrigger_only .thermalTrip _).flags f notFull notDropped).trans (State.flag_setFlag _ _ _))
    simp [raised, before, now, eq_comm (a := f)]

end ThermalOutcome

/-! ### The grid heat index (R54, R55) -/

/-- E_sum (R54), over the axles. -/
theorem State.effortSum_eq (s : State) :
    s.effortSum = (Axle.all.map (fun a =>
      if s.tbl.present a = false then 0
      else if s.roleFreshness (inverterRole a.inverter) = .fresh then (s.capability.inverters.get a).achieved
      else s.builder.last.cmd.efforts.get a)).sum := by
  rw [State.effortSum, PerAxle.sum_ofFn]
  refine congrArg List.sum (List.map_congr_left fun a _ => ?_)
  simp [State.axleEffort, State.roleFresh]

section HeatStep
variable (c : Capability) (pCool eSum vref dt : Nat)

theorem Capability.heatStep_thermal : (c.heatStep pCool eSum vref dt).thermal = c.thermal := by
  unfold Capability.heatStep; dsimp only; split <;> rfl

theorem Capability.heatStep_inverters : (c.heatStep pCool eSum vref dt).inverters = c.inverters := by
  unfold Capability.heatStep; dsimp only; split <;> rfl

variable {c pCool eSum vref dt}

/-- A sum below 0: the index is 0, and the remainders stay. -/
theorem Capability.heatStep_of_neg
    (h : c.heat + (eSum * vref * dt + c.remIn) / 3600000 < (pCool * dt + c.remCool) / 1000) :
    c.heatStep pCool eSum vref dt = { c with heat := 0 } := if_pos h

/-- A sum of at least 0: the index takes it up to 999,999, and the remainders are new. -/
theorem Capability.heatStep_of_nonneg
    (h : (pCool * dt + c.remCool) / 1000 ≤ c.heat + (eSum * vref * dt + c.remIn) / 3600000) :
    c.heatStep pCool eSum vref dt =
      { c with
        heat := min 999999 (c.heat + (eSum * vref * dt + c.remIn) / 3600000 - (pCool * dt + c.remCool) / 1000)
        remIn := (eSum * vref * dt + c.remIn) % 3600000, remCool := (pCool * dt + c.remCool) % 1000 } :=
  if_neg (Nat.not_lt.2 h)

end HeatStep

section HeatUpdate
variable (s : State) (dt : Nat)

/-- The capability unit after the heat step, before the thermal state is evaluated. -/
def State.heated : Capability := s.capability.heatStep s.tbl.thermal.pCool.toNat s.effortSum s.slide.vref dt

theorem State.heatUpdate_capability :
    (s.heatUpdate dt).capability =
      { s.heated dt with thermal := thermalNext s.tbl.thermal s.capability.thermal (s.heated dt).heat } := by
  have evaluated := (State.evaluateThermal_spec { s with capability := s.heated dt }).1
  rwa [show (s.heated dt).thermal = s.capability.thermal from Capability.heatStep_thermal ..] at evaluated

theorem State.heatUpdate_outcome : ThermalOutcome s (s.heatUpdate dt) := by
  have same : (s.heated dt).thermal = s.capability.thermal := Capability.heatStep_thermal ..
  have o : ThermalOutcome { s with capability := s.heated dt } (s.heatUpdate dt) :=
    (State.evaluateThermal_spec { s with capability := s.heated dt }).2
  cases o with
  | quiet now result => exact .quiet (same ▸ now) result
  | derated before now result => exact .derated (same ▸ before) now result
  | tripped before now result => exact .tripped (same ▸ before) now result

end HeatUpdate

/-! ### CLEAR_FAULTS (R195) -/

theorem Flag.mem_all (f : Flag) : f ∈ Flag.all := by cases f <;> decide

theorem flagIn_foldl_clearIn (l : List Flag) (r : BitVec 17) (f : Flag) :
    flagIn (l.foldl clearIn r) f = true ↔ flagIn r f = true ∧ f ∉ l := by
  induction l generalizing r with
  | nil => simp
  | cons g l ih => simp [ih, flagIn_clearIn, eq_comm (a := g), and_assoc]

/-- A flag outlives CLEAR_FAULTS when its class is not asked for or its condition holds. -/
theorem State.flagIn_clearedFaults (s : State) (classes : U8) (f : Flag) :
    flagIn (s.clearedFaults classes) f = true
      ↔ s.flag f = true ∧ (classes.getLsbD f.cls.bit = false ∨ s.condition f = true) := by
  have kept : f ∉ Flag.all.filter (fun f => classes.getLsbD f.cls.bit && !s.condition f)
      ↔ classes.getLsbD f.cls.bit = false ∨ s.condition f = true := by
    simp only [List.mem_filter, Flag.mem_all f, true_and]
    cases classes.getLsbD f.cls.bit <;> cases s.condition f <;> decide
  rw [State.clearedFaults, flagIn_foldl_clearIn, kept, State.flag]

/-! ### The obligation -/

/-- Settles O17: the branches of R56 and R57, the outcome of an evaluation, CLEAR_FAULTS, and the heat step. -/
theorem heatAndThermal : Obligations.HeatAndThermal := by
  refine ⟨fun r st h ok => ?judged, fun s => rfl, fun s dt => ?evaluated, fun s classes => ⟨?derateKept, ?tripKept⟩,
    fun s dt => ?summed⟩
  case judged =>
    obtain ⟨reset, trip⟩ := ThermalRec.ok_thresholds ok
    refine ⟨?_, derate_of_le_hDerate, fun hs hd ht => ⟨derate_of_between hs hd ht, ?_⟩,
      fun hs => derate_of_hTrip_le hs trip, ?_, ?_, fun hs ht => ?_, fun hs hd ht => ?_, fun hs hd => ?_⟩
    · rintro rfl
      exact derate_trip r h
    · exact Nat.le_of_lt_succ (derate_lt_of_between hs hd ht)
    · rintro rfl below
      exact ⟨by rw [thermalNext_trip, if_pos below], derate_of_le_hDerate nofun (by omega)⟩
    · rintro rfl above
      rw [thermalNext_trip, if_neg (by omega)]
    · rw [thermalNext_of_ne_trip hs, if_pos ht]
    · rw [thermalNext_of_ne_trip hs, if_neg (by omega), if_pos hd]
    · rw [thermalNext_of_ne_trip hs, if_neg (by omega), if_neg (by omega)]
  case evaluated =>
    have o := s.heatUpdate_outcome dt
    refine ⟨?_, ?_, ?_, o.eq_of_derated, o.eq_of_tripped, o.eq_of_quiet⟩
    · rw [s.heatUpdate_capability]
    · rw [Bool.eq_iff_iff, o.flag_iff (by decide) (by decide)]
      simp
    · rw [Bool.eq_iff_iff, o.flag_iff (by decide) (by decide)]
      simp
  case derateKept => simpa [State.condition, Flag.cls] using s.flagIn_clearedFaults classes .thermalDerate
  case tripKept => simpa [State.condition, Flag.cls] using s.flagIn_clearedFaults classes .thermalTrip
  case summed =>
    rw [s.heatUpdate_capability]
    dsimp only
    rw [← s.effortSum_eq]
    refine ⟨Capability.heatStep_inverters .., fun low high => ?_, fun high => ?_, fun low => ?_⟩
    · rw [State.heated, Capability.heatStep_of_nonneg (by omega)]
      exact ⟨by dsimp only; omega, rfl, rfl⟩
    · rw [State.heated, Capability.heatStep_of_nonneg (by omega)]
      exact ⟨by dsimp only; omega, rfl, rfl⟩
    · rw [State.heated, Capability.heatStep_of_neg (by omega)]
      exact ⟨rfl, rfl, rfl⟩

end Sys2Proof.Machine
end
